-- ==== Sys2Proof/Word.lean ====
section
/-!
DEFINITION. The words of the block and the small vocabularies its operations share: bytes and 16-bit words
(spec/00_scope.md R7), the measurement kinds (R78), the two request ports (R8), the actions on the two bus lines
(R7, R111), and the truncation of a rational toward zero (R7).
-/

namespace Sys2Proof

/-- `u8` of R7. -/
abbrev Byte := BitVec 8

/-- `u16` and `i16` of R7: sixteen bits, read as unsigned or as two's complement by the operation that uses them. -/
abbrev Word := BitVec 16

/-- The two measurement kinds (R78). Their numbers on the command port are in `Sys2Proof.kindOperand`. -/
inductive Kind where
  | temperature
  | humidity
  deriving DecidableEq, Repr

/-- The two request ports, the block's two contexts (R8, R222). -/
inductive Port where
  | tick
  | main
  deriving DecidableEq, Repr

/-- One performed bus action, as it stands in a trace (R111): `d b` sets the drive of the data line (`true` releases it),
`c b` sets the clock line, `w us` waits at least `us` microseconds, `s b` is a sample that returned `b`. -/
inductive BusAction where
  | d (b : Bool)
  | c (b : Bool)
  | w (us : Nat)
  | s (b : Bool)
  deriving DecidableEq, Repr

/-- One bus action still to be performed: the four primitives of the pin interface (R110). A sample has no bit yet. -/
inductive BusOp where
  | drive (b : Bool)
  | clock (b : Bool)
  | wait (us : Nat)
  | sample
  deriving DecidableEq, Repr

/-- `trunc(q)` of R7: the nearest integer that is not larger in magnitude. -/
def trunc (q : Rat) : Int := q.num.tdiv q.den

end Sys2Proof
end

