-- ==== Sys2Proof/Config.lean ====
section
/-!
DEFINITION. What a deployment fixes (spec/00_scope.md R6): the parameters, the check that a configuration meets every
constraint of R6, the named instances the spec lists (`CRC_TABLE_GK`, `PSET_A`), and the free values: constants WITHOUT
A BODY for what the spec leaves open. No statement can lean on their value.
-/

namespace Sys2Proof

/-- The arithmetic `NUM` of CONVERT (R152): the reference instance on exact rationals, the named IEEE 754 binary32
instance, or any other conforming arithmetic, told apart by a number and left uninterpreted. -/
inductive Arithmetic where
  | exact
  | binary32
  | other (id : Nat)
  deriving DecidableEq, Repr

/-- The parameters of R6, as plain data. Where R6 gives a reference value it is the field's default; where it gives none
the parameter is open. `CMD_TEMP` and `SUM_BITS` are no fields: R6 gives them one value each. -/
structure Parameters where
  /-- `CRC_TABLE` (R104). -/
  crcTable : Vector Byte 256
  /-- `CMD_HUMI`. -/
  cmdHumi : Byte
  /-- `POLL_INTERVAL_US`. -/
  pollIntervalUs : Nat := 100
  /-- `POLL_MAX`. -/
  pollMax : Nat := 20000
  /-- `T_HOLD_US`. -/
  tHoldUs : Nat := 1
  /-- `T_PULSE_US`. -/
  tPulseUs : Nat := 5
  /-- `C1` (R155). -/
  c1 : Rat
  /-- `C2` (R155). -/
  c2 : Rat
  /-- `C3` (R155). -/
  c3 : Rat
  /-- `D1` (R155). -/
  d1 : Rat
  /-- `D2` (R155). -/
  d2 : Rat
  /-- `T1` (R155). -/
  t1 : Rat
  /-- `T2` (R155). -/
  t2 : Rat
  /-- `NUM` (R152). -/
  num : Arithmetic := .exact
  /-- `NB`, the number of button channels. -/
  nb : Nat
  /-- `SHORT_PRESS_LIMIT`. -/
  shortPressLimit : Nat
  /-- `LONG_PRESS_FIRST_PERIOD`. -/
  longPressFirstPeriod : Nat
  /-- `LONG_PRESS_REPEAT_PERIOD`. -/
  longPressRepeatPeriod : Nat
  /-- `N`, the thermal window size. -/
  n : Nat := 16
  /-- `SAMPLE_BITS`. -/
  sampleBits : Nat := 16
  /-- `UPPER_THRESHOLD`. -/
  upperThreshold : Nat
  /-- `LOWER_THRESHOLD`. -/
  lowerThreshold : Nat
  /-- `PERIOD`. -/
  period : Nat
  deriving DecidableEq, Repr

/-- `CMD_TEMP = 0x03` (R6, R131): the one command byte whose value the source states. -/
def cmdTemp : Byte := 0x03

/-- `lo <= v <= hi`, as R6 writes its ranges. -/
def inRange (lo hi v : Nat) : Bool := decide (lo ≤ v) && decide (v ≤ hi)

/-- The temperature that R156 asks to fit `i16`, for one raw value: `trunc(10*(D1 + D2*T))`. -/
def Parameters.exactTemperature (p : Parameters) (rawTemp : Nat) : Int := trunc (10 * (p.d1 + p.d2 * rawTemp))

/-- `-32768 <= z <= 32767`. -/
def fitsI16 (z : Int) : Bool := decide (-32768 ≤ z) && decide (z ≤ 32767)

/-- CRC8 of `03 01 90` with the table (R100 to R102), the frame of the one numeric example of the source. -/
def Parameters.exampleCheck (p : Parameters) : Byte :=
  let forward := ([0x03, 0x01, 0x90] : List Byte).foldl
    (fun (crc b : Byte) => p.crcTable[(crc ^^^ b).toNat]'((crc ^^^ b).isLt)) 0
  forward.reverse

/-- The constraints of R6, all of them, and what R104 (b) requires of every admissible table: the check value of `03 01 90`
is not 0 (log entry 18). R156 asks that the temperature fit for EVERY raw value; it is checked at 0 and at 65535, which is
the same (DEDUCED, log entry 4: the formula is monotone; `Obligations.ExactTemperatureFits` says it). -/
def Parameters.valid (p : Parameters) : Bool :=
  decide (p.cmdHumi ≠ cmdTemp) &&
  decide (1 ≤ p.pollMax) &&
  fitsI16 (p.exactTemperature 0) && fitsI16 (p.exactTemperature 65535) &&
  inRange 1 256 p.nb &&
  inRange 1 255 p.shortPressLimit &&
  inRange 1 255 p.longPressFirstPeriod &&
  inRange 1 255 p.longPressRepeatPeriod &&
  inRange 1 256 p.n &&
  inRange 1 16 p.sampleBits &&
  decide (p.lowerThreshold < p.upperThreshold) &&
  inRange 1 256 p.period &&
  decide (p.exampleCheck ≠ 0x00)

/-- A configuration: parameters that meet every constraint. Parameters that break one are refused (R6, U12 of
spec/93_implementation_defined.md): no value of this type holds them. -/
structure Config extends Parameters where
  ok : toParameters.valid = true
  deriving DecidableEq, Repr

/-- The entry for index `i` of the table of the 8-bit CRC with generator `poly`, processed most significant bit first: the
recipe of R105 for any generator. -/
def crcTableEntry (poly i : Byte) : Byte :=
  (List.range 8).foldl (fun c _ => if c.getLsbD 7 then (c <<< 1) ^^^ poly else c <<< 1) i

/-- `CRC_TABLE` implements an 8-bit CRC with a fixed polynomial that is not reflected at input: the named property of a
configuration that R104 (a) speaks of. No part of `Parameters.valid`, since R104 has the table opaque (log entry 18). -/
def Parameters.TableIsForwardCrc (p : Parameters) : Prop :=
  ∃ poly : Byte, ∀ i : Fin 256, p.crcTable[i] = crcTableEntry poly (BitVec.ofNat 8 i)

/-- `CRC_TABLE` is a bijection on 0..255: the named property of a configuration that R104 (c) and R106 speak of. It is
no part of `Parameters.valid`; a statement that needs it assumes it (R106, log entry 18). -/
def Parameters.TableBijective (p : Parameters) : Prop :=
  ∀ i j : Fin 256, p.crcTable[i] = p.crcTable[j] → i = j

/-- `CRC_TABLE_GK` (R105), the candidate table the spec's vectors are computed with; one row of the rule's table a line. -/
def crcTableGKRows : List Byte :=
  [0x00, 0x31, 0x62, 0x53, 0xC4, 0xF5, 0xA6, 0x97, 0xB9, 0x88, 0xDB, 0xEA, 0x7D, 0x4C, 0x1F, 0x2E] ++
  [0x43, 0x72, 0x21, 0x10, 0x87, 0xB6, 0xE5, 0xD4, 0xFA, 0xCB, 0x98, 0xA9, 0x3E, 0x0F, 0x5C, 0x6D] ++
  [0x86, 0xB7, 0xE4, 0xD5, 0x42, 0x73, 0x20, 0x11, 0x3F, 0x0E, 0x5D, 0x6C, 0xFB, 0xCA, 0x99, 0xA8] ++
  [0xC5, 0xF4, 0xA7, 0x96, 0x01, 0x30, 0x63, 0x52, 0x7C, 0x4D, 0x1E, 0x2F, 0xB8, 0x89, 0xDA, 0xEB] ++
  [0x3D, 0x0C, 0x5F, 0x6E, 0xF9, 0xC8, 0x9B, 0xAA, 0x84, 0xB5, 0xE6, 0xD7, 0x40, 0x71, 0x22, 0x13] ++
  [0x7E, 0x4F, 0x1C, 0x2D, 0xBA, 0x8B, 0xD8, 0xE9, 0xC7, 0xF6, 0xA5, 0x94, 0x03, 0x32, 0x61, 0x50] ++
  [0xBB, 0x8A, 0xD9, 0xE8, 0x7F, 0x4E, 0x1D, 0x2C, 0x02, 0x33, 0x60, 0x51, 0xC6, 0xF7, 0xA4, 0x95] ++
  [0xF8, 0xC9, 0x9A, 0xAB, 0x3C, 0x0D, 0x5E, 0x6F, 0x41, 0x70, 0x23, 0x12, 0x85, 0xB4, 0xE7, 0xD6] ++
  [0x7A, 0x4B, 0x18, 0x29, 0xBE, 0x8F, 0xDC, 0xED, 0xC3, 0xF2, 0xA1, 0x90, 0x07, 0x36, 0x65, 0x54] ++
  [0x39, 0x08, 0x5B, 0x6A, 0xFD, 0xCC, 0x9F, 0xAE, 0x80, 0xB1, 0xE2, 0xD3, 0x44, 0x75, 0x26, 0x17] ++
  [0xFC, 0xCD, 0x9E, 0xAF, 0x38, 0x09, 0x5A, 0x6B, 0x45, 0x74, 0x27, 0x16, 0x81, 0xB0, 0xE3, 0xD2] ++
  [0xBF, 0x8E, 0xDD, 0xEC, 0x7B, 0x4A, 0x19, 0x28, 0x06, 0x37, 0x64, 0x55, 0xC2, 0xF3, 0xA0, 0x91] ++
  [0x47, 0x76, 0x25, 0x14, 0x83, 0xB2, 0xE1, 0xD0, 0xFE, 0xCF, 0x9C, 0xAD, 0x3A, 0x0B, 0x58, 0x69] ++
  [0x04, 0x35, 0x66, 0x57, 0xC0, 0xF1, 0xA2, 0x93, 0xBD, 0x8C, 0xDF, 0xEE, 0x79, 0x48, 0x1B, 0x2A] ++
  [0xC1, 0xF0, 0xA3, 0x92, 0x05, 0x34, 0x67, 0x56, 0x78, 0x49, 0x1A, 0x2B, 0xBC, 0x8D, 0xDE, 0xEF] ++
  [0x82, 0xB3, 0xE0, 0xD1, 0x46, 0x77, 0x24, 0x15, 0x3B, 0x0A, 0x59, 0x68, 0xFF, 0xCE, 0x9D, 0xAC]

/-- `CRC_TABLE_GK` as the 256-entry table of a configuration. -/
def crcTableGK : Vector Byte 256 := ⟨crcTableGKRows.toArray, by decide +kernel⟩

/-- The instance the spec's vectors are computed with (spec/95_test_vectors.md): the reference values of R6,
`CRC_TABLE_GK`, `CMD_HUMI = 0x05`, `PSET_A`, `NUM_EXACT`, and the limits of its programs. It serves the tests, and it
shows that a configuration exists. The machine after reset is NOT in this configuration but in
`Config.deployed`, of which nothing is known. -/
def Parameters.vectors : Parameters where
  crcTable := crcTableGK
  cmdHumi := 0x05
  c1 := -4
  c2 := 405 / 10000
  c3 := -28 / 10000000
  d1 := -40
  d2 := 1 / 100
  t1 := 1 / 100
  t2 := -8 / 100000
  nb := 1
  shortPressLimit := 10
  longPressFirstPeriod := 8
  longPressRepeatPeriod := 4
  upperThreshold := 8320
  lowerThreshold := 8000
  period := 100

/-- `Parameters.vectors` meets the constraints of R6. -/
def Config.vectors : Config where
  toParameters := Parameters.vectors
  ok := by decide +kernel

/-- FREE VALUE (log entry 1): the configuration of the deployment. R6 leaves it to the deployment, so it has no body.
(Lean asks that some configuration exist before it lets one be named without a body; that is the argument.) -/
opaque Config.deployment [Inhabited Config] : Config

/-- The configuration the block is reset with. -/
def Config.deployed : Config := @Config.deployment ⟨Config.vectors⟩

/-- FREE VALUE (log entry 2): what the bus peer drives when the state does not list its next answer (R63, U11). It may
depend on how many samples were taken before and on the whole trace so far. `true` is a released line. -/
opaque Config.peerDrive : Nat → List BusAction → Bool

/-- FREE VALUE (log entry 5): the temperature that an arithmetic other than the two named ones gives (R152, U5). -/
opaque Config.otherTemperature : Nat → Parameters → Word → Word

/-- FREE VALUE (log entry 5): the humidity that an arithmetic other than the two named ones gives. Every admissible `NUM`
keeps it in `0 .. 1000` (R153); its type says so. -/
opaque Config.otherHumidity : Nat → Parameters → Word → Word → Fin 1001

/-- FREE VALUE (log entry 6): the temperature of `NUM_F32` where the rounded result is no number or does not fit `i16`. -/
opaque Config.unstatedTemperature : Parameters → Word → Word

/-- FREE VALUE (log entry 6): the humidity of `NUM_F32` where an intermediate is no number (R153 bounds it). -/
opaque Config.unstatedHumidity : Parameters → Word → Word → Fin 1001

end Sys2Proof
end

