-- ==== Sys2Proof/Machine/State.lean ====
section
/-!
DEFINITION. The state of the block (spec/10_state.md), as plain data, unit by unit; the reasons a step can stop; the state
after reset (R43, R241). What is not a register of the spec but the model's own (the configuration a state belongs to, the
bus trace, the peer's answers, the requests the outside presents, the responses given, the micro-steps a MEASURE has
left) is marked so at its field.
-/

namespace Sys2Proof.Machine

/-- A step of this block never faults: the block has no trap (R220) and no behaviour of it is a fault
(spec/93_implementation_defined.md, the sentence after U20). No constructor, so nobody raises one; that is the spec's own
statement, neither safe nor unsafe. -/
inductive Fault where
  deriving DecidableEq, Repr

/-- Why a step gives no meaning. The block answers every request (R71), with the status REFUSED or ILLEGAL where it gives it
no meaning; those are next states, not refusals of the model. -/
inductive Refusal where
  /-- Raised by an arm of `exec` for an operation the model gives no meaning yet. Safe: the model stops where the block goes
  on. No arm raises it. -/
  | notModelled (mnemonic : String)
  deriving DecidableEq, Repr

/-- `sd_phase` (R25). Its values 5 to 7 are never written, and no constructor stands for them (log entry 9). -/
inductive Phase where
  | idle
  | started
  | polling
  | read
  | done
  deriving DecidableEq, Repr

/-- `seq[ch]` (R29): the two-bit sequence state. Two bits hold these four values and no other, so the defensive default of
R178 has no constructor (log entry 9). -/
inductive Seq where
  | idle
  | armedShortOrHold
  | hold1
  | holdRepeat
  deriving DecidableEq, Repr

/-- `event_out[ch]` (R31, R81). Its value 3 is never written. -/
inductive Event where
  | none
  | pressed
  | hold
  deriving DecidableEq, Repr

/-- BitbangProtocol's registers, and the outside of its two lines. -/
structure Bus where
  /-- `data_drv` (R23): `true` releases the data line, `false` drives it low. -/
  dataDrv : Bool
  /-- `sck` (R24). -/
  sck : Bool
  /-- The bus actions performed since reset, oldest first (R111, R241). The model's own: the block's outward effect, its waits
  without a duration (log entry 12). -/
  trace : List BusAction
  /-- What the peer drives at the next samples, as far as it is settled (R63); `true` is a released line. The model's own:
  an input. When it is used up the peer is free (`Config.peerDrive`). -/
  peer : List Bool
  /-- How many samples were taken since power-on. The model's own: it keeps the free samples apart. -/
  draws : Nat
  deriving DecidableEq, Repr

/-- What a MEASURE or MEASURE_AND_CHECK in progress is doing (R140). -/
inductive Stage where
  /-- The start waveform and the command byte. -/
  | command
  /-- One ready check of the poll loop. -/
  | check
  /-- The wait after a failed ready check. -/
  | pause
  /-- The three bytes of READ_RESULT. -/
  | read
  deriving DecidableEq, Repr

/-- A MEASURE or MEASURE_AND_CHECK in progress (R58, R141). The registers the spec names for it are `kind`, `poll` and
`phase` of `Sensor`; this is the rest of its progress, the model's own (log entry 8). -/
structure Measure where
  /-- Whether the operation is MEASURE_AND_CHECK. -/
  checked : Bool
  stage : Stage
  /-- The micro-steps left of the stage, the next one first. -/
  todo : List BusOp
  /-- The samples taken in the stage, the oldest first. -/
  got : List Bool
  deriving DecidableEq, Repr

/-- SensorDriver's registers. -/
structure Sensor where
  /-- `sd_phase` (R25). -/
  phase : Phase
  /-- `sd_kind` (R26). -/
  kind : Kind
  /-- `sd_poll` (R26). -/
  poll : Nat
  /-- The operation in progress on the MAIN port, if there is one. The model's own. -/
  running : Option Measure
  deriving DecidableEq, Repr

/-- One ButtonChannel and its event latch. -/
structure Channel where
  /-- `filter_shift[ch]` (R27). -/
  filterShift : Byte
  /-- `settled[ch]` (R28). -/
  settled : Bool
  /-- `seq[ch]` (R29). -/
  seq : Seq
  /-- `hold_timer[ch]` (R30). -/
  holdTimer : Byte
  /-- `event_out[ch]` (R31). -/
  eventOut : Event
  deriving DecidableEq, Repr

/-- The ThermalWindow. Its numbers are natural numbers (R7, R191); `Sys2Proof.Machine.State.Inv` holds their widths (log
entry 9). -/
structure Thermal where
  /-- `buffer[0 .. N-1]` (R32). -/
  buffer : List Nat
  /-- `sum` (R33). -/
  sum : Nat
  /-- `pos` (R34). -/
  pos : Nat
  /-- `tripped` (R35). -/
  tripped : Bool
  deriving DecidableEq, Repr

/-- What reaches the block from outside, in the order the block meets it (R9, R60). -/
inductive Input where
  /-- A request presented on a port (R70). -/
  | request (port : Port) (bytes : List Byte)
  /-- The operation in progress performs one micro-step before the next request is served (R58, R141). -/
  | proceed
  /-- The reset event (R240). -/
  | reset
  deriving DecidableEq, Repr

/-- The state of the block. -/
structure State where
  /-- The configuration (R6). The model's own: it stands here because a step has no other argument. No step changes it (log
  entry 11). -/
  cfg : Config
  bus : Bus
  sensor : Sensor
  /-- One entry for each button channel, channel 0 first (R27 to R31). -/
  channels : List Channel
  thermal : Thermal
  /-- `duty` (R36). -/
  duty : Byte
  /-- What the outside presents next. The model's own: an input (log entry 3). -/
  inputs : List Input
  /-- The response last given on the TICK port (R71), none given being the empty list. The model's own: an output
  (log entry 14). -/
  tickResponse : List Byte
  /-- The response last given on the MAIN port; the empty list while an operation is in progress. The model's own. -/
  mainResponse : List Byte
  deriving DecidableEq, Repr

/-- `data_drv = 1`, `sck = 0` (R43), an empty trace (R241), nothing settled about the peer (R242). -/
def Bus.reset : Bus where
  dataDrv := true
  sck := false
  trace := []
  peer := []
  draws := 0

/-- `sd_phase = Idle`, `sd_kind = 0`, `sd_poll = 0` (R43), no operation in flight (R241). -/
def Sensor.reset : Sensor where
  phase := .idle
  kind := .temperature
  poll := 0
  running := none

/-- A channel after reset (R43). -/
def Channel.reset : Channel where
  filterShift := 0
  settled := false
  seq := .idle
  holdTimer := 0
  eventOut := .none

/-- The window after reset: every entry 0 (R43). -/
def Thermal.reset (c : Config) : Thermal where
  buffer := List.replicate c.n 0
  sum := 0
  pos := 0
  tripped := false

/-- The block with configuration `c` after reset (R43, R241), with no request presented yet. -/
def State.resetWith (c : Config) : State where
  cfg := c
  bus := Bus.reset
  sensor := Sensor.reset
  channels := List.replicate c.nb Channel.reset
  thermal := Thermal.reset c
  duty := 0
  inputs := []
  tickResponse := []
  mainResponse := []

/-- The machine right after reset, in the configuration of the deployment, of which nothing is known (R6, R242). -/
def State.reset : State := State.resetWith Config.deployed

end Sys2Proof.Machine
end

