-- ==== Sys2Proof/Machine/Flags.lean ====
section
/-!
DEFINITION. The block's two flag-like bits (R40) and the tests its operations make: the filtered level `settled` (R172), the
trip flag (R192), and the phases that accept a SensorDriver request (R132).
-/

namespace Sys2Proof.Machine

/-- Step 2 of DEBOUNCE_TICK (R172): the level after the shift register became `fs`. -/
def settledNext (fs : Byte) (st : Bool) : Bool :=
  let low := fs.extractLsb' 0 3
  if low = 0b111#3 then true else if low = 0b000#3 then false else st

/-- The gate of THERMAL_SAMPLE (R192), its two lines in order, on the new sum. -/
def trippedNext (c : Config) (sum : Nat) (t : Bool) : Bool :=
  let t1 := if t = false ∧ sum > c.upperThreshold then true else t
  if t1 = true ∧ sum < c.lowerThreshold then false else t1

/-- START_MEASUREMENT, MEASURE and MEASURE_AND_CHECK are accepted in `Idle` and `Done` (R132). -/
def acceptsStart : Phase → Bool
  | .idle => true
  | .done => true
  | .started => false
  | .polling => false
  | .read => false

/-- POLL_DONE is accepted in `Started` and `Polling` (R132). -/
def acceptsPoll : Phase → Bool
  | .started => true
  | .polling => true
  | .idle => false
  | .read => false
  | .done => false

/-- READ_RESULT is accepted in `Read` (R132). -/
def acceptsRead : Phase → Bool
  | .read => true
  | .idle => false
  | .started => false
  | .polling => false
  | .done => false

end Sys2Proof.Machine
end

