-- ==== Sys2Proof/Syntax.lean ====
section
/-!
DEFINITION. The 19 operations of the block, one constructor per row of spec/opcode_table.json (R74), with their operands
already in the type the spec gives them (R75, R78, R82). Operand values that no type here excludes and the
configuration does (a channel, a thermal sample) are checked in WellFormed.lean and Decode.lean.
-/

namespace Sys2Proof

/-- A decoded request (R70, R74). -/
inductive Instr where
  /-- CRC8, opcode 0x10 (R100). -/
  | crc8 (data : List Byte)
  /-- BUS_RESET, opcode 0x20 (R114). -/
  | busReset
  /-- BUS_START, opcode 0x21 (R113). -/
  | busStart
  /-- BUS_WRITE_BYTE, opcode 0x22 (R116). -/
  | busWriteByte (value : Byte)
  /-- BUS_READ_BYTE, opcode 0x23 (R118). -/
  | busReadByte (sendAck : Bool)
  /-- START_MEASUREMENT, opcode 0x30 (R134). -/
  | startMeasurement (kind : Kind)
  /-- POLL_DONE, opcode 0x31 (R136). -/
  | pollDone
  /-- READ_RESULT, opcode 0x32 (R138). -/
  | readResult
  /-- VERIFY_CRC, opcode 0x33 (R139). -/
  | verifyCrc (kind : Kind) (hi lo cs : Byte)
  /-- MEASURE, opcode 0x34 (R140). -/
  | measure (kind : Kind)
  /-- MEASURE_AND_CHECK, opcode 0x35 (R142). -/
  | measureAndCheck (kind : Kind)
  /-- CONVERT, opcode 0x40 (R150). -/
  | convert (rawTemp rawHumidity : Word)
  /-- TO_PACKED_BCD, opcode 0x41 (R157). -/
  | toPackedBcd (value : Word)
  /-- DEBOUNCE_TICK, opcode 0x50 (R170). -/
  | debounceTick (ch : Byte) (sample : Bool)
  /-- READ_EVENT, opcode 0x51 (R182). -/
  | readEvent (ch : Byte)
  /-- THERMAL_SAMPLE, opcode 0x60 (R190). -/
  | thermalSample (newSample : Word)
  /-- IS_OVERTEMP, opcode 0x61 (R195). -/
  | isOvertemp
  /-- SET_DUTY, opcode 0x70 (R200). -/
  | setDuty (value : Byte)
  /-- GET_DUTY, opcode 0x71 (R203). -/
  | getDuty
  deriving DecidableEq, Repr

end Sys2Proof
end

