-- ==== Sys2Proof/WellFormed.lean ====
section
/-!
DEFINITION. When an operation is well formed under a configuration (spec/30_encoding.md R73, R75): the operand domains
that the operand's type does not already carry.
-/

namespace Sys2Proof

/-- `ch` is in `0 .. NB-1` (R75). -/
def channelWf (c : Config) (ch : Byte) : Bool := decide (ch.toNat < c.nb)

/-- `new_sample < 2^SAMPLE_BITS` (R75). -/
def sampleWf (c : Config) (v : Word) : Bool := decide (v.toNat < 2 ^ c.sampleBits)

/-- The port format FV carries at most 255 data bytes (R70, R73). -/
def dataWf (data : List Byte) : Bool := decide (data.length ≤ 255)

/-- The operation can be requested of a block with configuration `c`. -/
def Instr.wf (c : Config) : Instr → Bool
  | .crc8 data => dataWf data
  | .busReset => true
  | .busStart => true
  | .busWriteByte _ => true
  | .busReadByte _ => true
  | .startMeasurement _ => true
  | .pollDone => true
  | .readResult => true
  | .verifyCrc _ _ _ _ => true
  | .measure _ => true
  | .measureAndCheck _ => true
  | .convert _ _ => true
  | .toPackedBcd _ => true
  | .debounceTick ch _ => channelWf c ch
  | .readEvent ch => channelWf c ch
  | .thermalSample v => sampleWf c v
  | .isOvertemp => true
  | .setDuty _ => true
  | .getDuty => true

end Sys2Proof
end

