-- ==== Sys2Proof/Decode.lean ====
section
/-!
DEFINITION. Requests as bytes (spec/30_encoding.md): the opcode map of R74, the decoder with its refusals by name (R72, R75,
R76), the encoder, and the reading of a row of spec/opcode_table.json.
-/

namespace Sys2Proof

/-- The five request formats (R70). -/
inductive Format where
  | f0
  | f1
  | f2
  | f4
  | fv
  deriving DecidableEq, Repr

/-- How many bytes a request of the format has, its second byte being `second` (R70, R72). -/
def Format.length (second : Byte) : Format → Nat
  | .f0 => 1
  | .f1 => 2
  | .f2 => 3
  | .f4 => 5
  | .fv => 2 + second.toNat

/-- The rows of the opcode map (R74). -/
inductive Opcode where
  | crc8
  | busReset
  | busStart
  | busWriteByte
  | busReadByte
  | startMeasurement
  | pollDone
  | readResult
  | verifyCrc
  | measure
  | measureAndCheck
  | convert
  | toPackedBcd
  | debounceTick
  | readEvent
  | thermalSample
  | isOvertemp
  | setDuty
  | getDuty
  deriving DecidableEq, Repr

/-- Every row, in the map's order. -/
def Opcode.all : List Opcode :=
  [.crc8, .busReset, .busStart, .busWriteByte, .busReadByte, .startMeasurement, .pollDone, .readResult, .verifyCrc,
    .measure, .measureAndCheck, .convert, .toPackedBcd, .debounceTick, .readEvent, .thermalSample, .isOvertemp,
    .setDuty, .getDuty]

/-- Column opcode of R74. -/
def Opcode.code : Opcode → Byte
  | .crc8 => 0x10
  | .busReset => 0x20
  | .busStart => 0x21
  | .busWriteByte => 0x22
  | .busReadByte => 0x23
  | .startMeasurement => 0x30
  | .pollDone => 0x31
  | .readResult => 0x32
  | .verifyCrc => 0x33
  | .measure => 0x34
  | .measureAndCheck => 0x35
  | .convert => 0x40
  | .toPackedBcd => 0x41
  | .debounceTick => 0x50
  | .readEvent => 0x51
  | .thermalSample => 0x60
  | .isOvertemp => 0x61
  | .setDuty => 0x70
  | .getDuty => 0x71

/-- Column format of R74. -/
def Opcode.format : Opcode → Format
  | .crc8 => .fv
  | .busReset => .f0
  | .busStart => .f0
  | .busWriteByte => .f1
  | .busReadByte => .f1
  | .startMeasurement => .f1
  | .pollDone => .f0
  | .readResult => .f0
  | .verifyCrc => .f4
  | .measure => .f1
  | .measureAndCheck => .f1
  | .convert => .f4
  | .toPackedBcd => .f2
  | .debounceTick => .f2
  | .readEvent => .f1
  | .thermalSample => .f2
  | .isOvertemp => .f0
  | .setDuty => .f1
  | .getDuty => .f0

/-- Column port of R74: the port that accepts the opcode (R222). -/
def Opcode.port : Opcode → Port
  | .debounceTick => .tick
  | .thermalSample => .tick
  | .crc8 => .main
  | .busReset => .main
  | .busStart => .main
  | .busWriteByte => .main
  | .busReadByte => .main
  | .startMeasurement => .main
  | .pollDone => .main
  | .readResult => .main
  | .verifyCrc => .main
  | .measure => .main
  | .measureAndCheck => .main
  | .convert => .main
  | .toPackedBcd => .main
  | .readEvent => .main
  | .isOvertemp => .main
  | .setDuty => .main
  | .getDuty => .main

/-- The row of an opcode byte; none for the 237 reserved values (R76). -/
def Opcode.ofByte (b : Byte) : Option Opcode := Opcode.all.find? (fun o => o.code == b)

/-- The row an operation is encoded by. -/
def Instr.opcode : Instr → Opcode
  | .crc8 _ => .crc8
  | .busReset => .busReset
  | .busStart => .busStart
  | .busWriteByte _ => .busWriteByte
  | .busReadByte _ => .busReadByte
  | .startMeasurement _ => .startMeasurement
  | .pollDone => .pollDone
  | .readResult => .readResult
  | .verifyCrc _ _ _ _ => .verifyCrc
  | .measure _ => .measure
  | .measureAndCheck _ => .measureAndCheck
  | .convert _ _ => .convert
  | .toPackedBcd _ => .toPackedBcd
  | .debounceTick _ _ => .debounceTick
  | .readEvent _ => .readEvent
  | .thermalSample _ => .thermalSample
  | .isOvertemp => .isOvertemp
  | .setDuty _ => .setDuty
  | .getDuty => .getDuty

/-- The port that accepts an operation (R222). -/
def Instr.port (i : Instr) : Port := i.opcode.port

/-- Why a request does not decode (R76). The response is the same for all four (R217). -/
inductive DecodeError where
  /-- The empty request. -/
  | empty
  /-- The opcode byte is in no row of the map. -/
  | reservedOpcode (op : Byte)
  /-- The request's length is not its format's (R72). -/
  | wrongLength (op : Byte)
  /-- An operand is outside its domain (R75). -/
  | operandOutOfDomain (op : Byte)
  deriving DecidableEq, Repr

/-- A boolean operand, 0 or 1 (R75, R82). -/
def boolOperand (b : Byte) : Option Bool :=
  if b = 0 then some false else if b = 1 then some true else none

/-- A kind operand, 0 or 1 (R75, R78). -/
def kindOperand (b : Byte) : Option Kind :=
  if b = 0 then some .temperature else if b = 1 then some .humidity else none

/-- A boolean as a byte (R82). -/
def boolByte (b : Bool) : Byte := if b then 1 else 0

/-- A kind as a byte (R78). -/
def kindByte : Kind → Byte
  | .temperature => 0
  | .humidity => 1

/-- Two bytes as a word, high byte first (R67). -/
def joinBytes (hi lo : Byte) : Word := hi ++ lo

/-- The high byte of a word. -/
def hiByte (v : Word) : Byte := v.extractLsb' 8 8

/-- The low byte of a word. -/
def loByte (v : Word) : Byte := v.extractLsb' 0 8

/-- An operand that was read, or the refusal that names the opcode. -/
def orOutOfDomain {α : Type} (o : Opcode) (v : Option α) (mk : α → Instr) : Except DecodeError Instr :=
  match v with
  | some x => .ok (mk x)
  | none => .error (.operandOutOfDomain o.code)

/-- The refusal of a request whose length is not its format's (R72). -/
def lengthError (o : Opcode) : Except DecodeError Instr := .error (.wrongLength o.code)

/-- Format F0: no operand byte (R70). -/
def readF0 (o : Opcode) (bytes : List Byte) (f : Except DecodeError Instr) : Except DecodeError Instr :=
  match bytes with
  | [] => f
  | _ :: _ => lengthError o

/-- Format F1: one operand byte. -/
def readF1 (o : Opcode) (bytes : List Byte) (f : Byte → Except DecodeError Instr) : Except DecodeError Instr :=
  match bytes with
  | [] => lengthError o
  | a :: rest => readF0 o rest (f a)

/-- Format F2: two operand bytes. -/
def readF2 (o : Opcode) (bytes : List Byte) (f : Byte → Byte → Except DecodeError Instr) : Except DecodeError Instr :=
  match bytes with
  | [] => lengthError o
  | a :: rest => readF1 o rest (f a)

/-- Format F4: four operand bytes. -/
def readF4 (o : Opcode) (bytes : List Byte) (f : Byte → Byte → Byte → Byte → Except DecodeError Instr) :
    Except DecodeError Instr :=
  match bytes with
  | a :: b :: rest => readF2 o rest (f a b)
  | [_] => lengthError o
  | [] => lengthError o

/-- Format FV: a length byte and as many data bytes. -/
def readFV (o : Opcode) (bytes : List Byte) (f : List Byte → Except DecodeError Instr) : Except DecodeError Instr :=
  match bytes with
  | [] => lengthError o
  | n :: data => if data.length = n.toNat then f data else lengthError o

/-- The operand bytes of a request (R70, R74), the length checked before the domains (R72, R75). -/
def decodeOperands (o : Opcode) (bytes : List Byte) : Except DecodeError Instr :=
  match o with
  | .crc8 => readFV o bytes (fun data => .ok (.crc8 data))
  | .busReset => readF0 o bytes (.ok .busReset)
  | .busStart => readF0 o bytes (.ok .busStart)
  | .busWriteByte => readF1 o bytes (fun a => .ok (.busWriteByte a))
  | .busReadByte => readF1 o bytes (fun a => orOutOfDomain o (boolOperand a) .busReadByte)
  | .startMeasurement => readF1 o bytes (fun a => orOutOfDomain o (kindOperand a) .startMeasurement)
  | .pollDone => readF0 o bytes (.ok .pollDone)
  | .readResult => readF0 o bytes (.ok .readResult)
  | .verifyCrc => readF4 o bytes (fun a b c d => orOutOfDomain o (kindOperand a) (fun k => .verifyCrc k b c d))
  | .measure => readF1 o bytes (fun a => orOutOfDomain o (kindOperand a) .measure)
  | .measureAndCheck => readF1 o bytes (fun a => orOutOfDomain o (kindOperand a) .measureAndCheck)
  | .convert => readF4 o bytes (fun a b c d => .ok (.convert (joinBytes a b) (joinBytes c d)))
  | .toPackedBcd => readF2 o bytes (fun a b => .ok (.toPackedBcd (joinBytes a b)))
  | .debounceTick => readF2 o bytes (fun a b => orOutOfDomain o (boolOperand b) (.debounceTick a))
  | .readEvent => readF1 o bytes (fun a => .ok (.readEvent a))
  | .thermalSample => readF2 o bytes (fun a b => .ok (.thermalSample (joinBytes a b)))
  | .isOvertemp => readF0 o bytes (.ok .isOvertemp)
  | .setDuty => readF1 o bytes (fun a => .ok (.setDuty a))
  | .getDuty => readF0 o bytes (.ok .getDuty)

/-- Everything R72, R75 and R76 ask of a request that does not depend on the configuration. Total on any bytes. -/
def decode : List Byte → Except DecodeError Instr
  | [] => .error .empty
  | b :: rest =>
    match Opcode.ofByte b with
    | none => .error (.reservedOpcode b)
    | some o => decodeOperands o rest

/-- The two domains of R75 that the configuration fixes: `ch` in `0 .. NB-1`, `new_sample` in `0 .. 2^SAMPLE_BITS - 1`. -/
def operandsInDomain (c : Config) : Instr → Bool
  | .debounceTick ch _ => decide (ch.toNat ≤ c.nb - 1)
  | .readEvent ch => decide (ch.toNat ≤ c.nb - 1)
  | .thermalSample v => decide (v.toNat ≤ 2 ^ c.sampleBits - 1)
  | .crc8 _ => true
  | .busReset => true
  | .busStart => true
  | .busWriteByte _ => true
  | .busReadByte _ => true
  | .startMeasurement _ => true
  | .pollDone => true
  | .readResult => true
  | .verifyCrc _ _ _ _ => true
  | .measure _ => true
  | .measureAndCheck _ => true
  | .convert _ _ => true
  | .toPackedBcd _ => true
  | .isOvertemp => true
  | .setDuty _ => true
  | .getDuty => true

/-- The decoder of a block with configuration `c`: check (1) of R218, whole. -/
def decodeRequest (c : Config) (bytes : List Byte) : Except DecodeError Instr :=
  match decode bytes with
  | .error e => .error e
  | .ok i => if operandsInDomain c i then .ok i else .error (.operandOutOfDomain i.opcode.code)

/-- The operand bytes of an operation (R70, R74). -/
def operandBytes : Instr → List Byte
  | .crc8 data => BitVec.ofNat 8 data.length :: data
  | .busReset => []
  | .busStart => []
  | .busWriteByte v => [v]
  | .busReadByte a => [boolByte a]
  | .startMeasurement k => [kindByte k]
  | .pollDone => []
  | .readResult => []
  | .verifyCrc k hi lo cs => [kindByte k, hi, lo, cs]
  | .measure k => [kindByte k]
  | .measureAndCheck k => [kindByte k]
  | .convert t h => [hiByte t, loByte t, hiByte h, loByte h]
  | .toPackedBcd v => [hiByte v, loByte v]
  | .debounceTick ch b => [ch, boolByte b]
  | .readEvent ch => [ch]
  | .thermalSample v => [hiByte v, loByte v]
  | .isOvertemp => []
  | .setDuty v => [v]
  | .getDuty => []

/-- The request of an operation (R70). -/
def encode (i : Instr) : List Byte := i.opcode.code :: operandBytes i

/-- Byte `k` of the bits `w`, of which `nbits` are given and the rest are 0. -/
def tableByte (nbits w k : Nat) : Byte := if 8 * k < nbits then BitVec.ofNat 8 (w >>> (8 * k)) else 0

/-- The request whose bits are `w`, numbered as spec/opcode_table.json numbers them: byte 0 is the opcode and holds bits
7..0. Bits above `nbits` are 0, up to the length the opcode's format gives. -/
def tableBytes (nbits w : Nat) : List Byte :=
  let len := match Opcode.ofByte (tableByte nbits w 0) with
    | some o => o.format.length (tableByte nbits w 1)
    | none => nbits / 8
  (List.range len).map (tableByte nbits w)

/-- The operation the decoder reads from a row of spec/opcode_table.json. -/
def decodeTableWord (nbits w : Nat) : Option Instr := (decode (tableBytes nbits w)).toOption

end Sys2Proof
end

