-- ==== Sys2Proof/Machine/Operands.lean ====
section
/-!
DEFINITION. The forms an operation's operands and results take: the command byte of a kind (R78, R131), a byte as the bits on
the bus (R55), the bit reversal of the CRC (R102), events and statuses as bytes (R81, R210), and rationals cut to a range
(R7). The forms the decoder reads and the encoder writes (booleans, kinds, words high byte first) are in Decode.lean.
-/

namespace Sys2Proof.Machine

/-- `cmd(kind)` (R78, R131). -/
def commandByte (c : Config) : Kind → Byte
  | .temperature => cmdTemp
  | .humidity => c.cmdHumi

/-- The bits of a byte in the order they travel: bit 7 first (R55). -/
def bitsOfByte (v : Byte) : List Bool :=
  [v.getLsbD 7, v.getLsbD 6, v.getLsbD 5, v.getLsbD 4, v.getLsbD 3, v.getLsbD 2, v.getLsbD 1, v.getLsbD 0]

/-- The byte whose bits travelled in this order, bit 7 first (R55, R118). -/
def byteOfBits (bits : List Bool) : Byte := bits.foldl (fun v b => (v <<< 1) ||| boolByte b) 0

/-- `rev8(v)` (R7, R102): result bit `i` is `v[7-i]`. -/
def rev8 (v : Byte) : Byte := v.reverse

/-- An event as a byte (R81). -/
def eventByte : Event → Byte
  | .none => 0
  | .pressed => 1
  | .hold => 2

/-- A word as two bytes, high byte first (R67). -/
def wordBytes (v : Word) : List Byte := [hiByte v, loByte v]

/-- The status of a response (R210). -/
inductive Status where
  | ok
  | busNack
  | timeout
  | checksum
  | saturated
  | refused
  | illegal
  deriving DecidableEq, Repr

/-- Column code of R210. -/
def statusByte : Status → Byte
  | .ok => 0x00
  | .busNack => 0x01
  | .timeout => 0x02
  | .checksum => 0x03
  | .saturated => 0x04
  | .refused => 0xFE
  | .illegal => 0xFF

/-- Column payload of R210: the result bytes are present exactly when the status is OK or SATURATED (R71). -/
def carriesPayload : Status → Bool
  | .ok => true
  | .saturated => true
  | .busNack => false
  | .timeout => false
  | .checksum => false
  | .refused => false
  | .illegal => false

/-- A response (R71). -/
def responseBytes (st : Status) (payload : List Byte) : List Byte :=
  statusByte st :: (if carriesPayload st then payload else [])

/-- `clamp(q, 0, 100)` (R7, R151). -/
def clampPercent (q : Rat) : Rat := if q < 0 then 0 else if 100 < q then 100 else q

/-- An integer result as `i16` (R156), or the free value that stands for a result which does not fit. -/
def toI16 (z : Int) (free : Word) : Word := if fitsI16 z then BitVec.ofInt 16 z else free

end Sys2Proof.Machine
end

