-- ==== Sys2Proof/Machine/Ops.lean ====
section
/-!
DEFINITION. The named operations over the state that the meanings share: bus actions (R110, R111) and lists of them, the
button channels and the ring (R52), giving a response (R71), and the reset event (R240). The block has no trap (R220): what
stands for taking an exception is `State.answerError`, one status byte and nothing else, and there is no return (R223).
-/

namespace Sys2Proof.Machine

/-- What the peer drives at the next sample: its next settled answer, else anything (R63). -/
def Bus.peerNow (b : Bus) : Bool :=
  match b.peer with
  | x :: _ => x
  | [] => Config.peerDrive b.draws b.trace

/-- The level of the data line: wired-AND of the block's drive and the peer's (R64). -/
def Bus.level (b : Bus) : Bool := b.dataDrv && b.peerNow

/-- One action on the bus, with the samples taken so far (R111). Every sample uses up an answer of the peer (log entry
13). -/
def busStep (op : BusOp) (r : Bus × List Bool) : Bus × List Bool :=
  match op with
  | .drive v => ({ r.1 with dataDrv := v, trace := r.1.trace ++ [.d v] }, r.2)
  | .clock v => ({ r.1 with sck := v, trace := r.1.trace ++ [.c v] }, r.2)
  | .wait us => ({ r.1 with trace := r.1.trace ++ [.w us] }, r.2)
  | .sample =>
    ({ r.1 with trace := r.1.trace ++ [.s r.1.level], peer := r.1.peer.tail, draws := r.1.draws + 1 },
      r.2 ++ [r.1.level])

/-- Several actions in order: the bus after them, and the samples they took, the oldest first. -/
def Bus.run (program : List BusOp) (b : Bus) : Bus × List Bool :=
  program.foldl (fun r op => busStep op r) (b, [])

/-- Writes the bus. -/
def State.withBus (s : State) (b : Bus) : State := { s with bus := b }

/-- Writes SensorDriver's registers. -/
def State.withSensor (s : State) (d : Sensor) : State := { s with sensor := d }

/-- Writes `sd_phase`. -/
def State.withPhase (s : State) (p : Phase) : State := { s with sensor := { s.sensor with phase := p } }

/-- Writes `sd_kind`. -/
def State.withKind (s : State) (k : Kind) : State := { s with sensor := { s.sensor with kind := k } }

/-- Writes the thermal window. -/
def State.withThermal (s : State) (t : Thermal) : State := { s with thermal := t }

/-- Writes `duty`. -/
def State.withDuty (s : State) (v : Byte) : State := { s with duty := v }

/-- Writes what is presented next. -/
def State.withInputs (s : State) (ins : List Input) : State := { s with inputs := ins }

/-- Channel `ch`. (`decodeRequest` lets no request name a channel that does not exist; for one, this is a channel at
reset: log entry 16.) -/
def State.channel (s : State) (ch : Byte) : Channel := s.channels.getD ch.toNat Channel.reset

/-- Writes channel `ch` and no other (R183). -/
def State.withChannel (s : State) (ch : Byte) (c : Channel) : State :=
  { s with channels := s.channels.set ch.toNat c }

/-- Gives a response on a port (R71). -/
def State.answer (s : State) (p : Port) (st : Status) (payload : List Byte) : State :=
  match p with
  | .tick => { s with tickResponse := responseBytes st payload }
  | .main => { s with mainResponse := responseBytes st payload }

/-- What stands for taking an exception (R210, R220): the status byte is all there is; nothing is saved, no mode, mask or
stack changes, and control goes nowhere else. -/
def State.answerError (s : State) (p : Port) (st : Status) : State := s.answer p st []

/-- The reset event (R240, R241): every register at its reset value and no operation in flight. The configuration stays
(R242), and so does what belongs to the outside: the peer, and what is presented next (log entry 10). -/
def State.blockReset (s : State) : State :=
  { State.resetWith s.cfg with
    bus := { Bus.reset with peer := s.bus.peer, draws := s.bus.draws }
    inputs := s.inputs }

end Sys2Proof.Machine
end

