-- ==== Sys2Proof/Machine/Actuator.lean ====
section
/-!
DEFINITION. ActuatorGate (spec/47_actuator.md).
-/

namespace Sys2Proof.Machine

/-- The clamp into `[0, PERIOD)` (R200, R201). -/
def clampDuty (c : Config) (value : Byte) : Byte :=
  if value.toNat < c.period then value else BitVec.ofNat 8 (c.period - 1)

/-- SET_DUTY (R200): 0 while the trip flag is set. -/
def execSetDuty (value : Byte) (s : State) : Host.Outcome State Fault Refusal :=
  .next ((s.withDuty (if s.thermal.tripped then 0 else clampDuty s.cfg value)).answer .main .ok [])

/-- GET_DUTY (R203): writes nothing. -/
def execGetDuty (s : State) : Host.Outcome State Fault Refusal :=
  .next (s.answer .main .ok [s.duty])

end Sys2Proof.Machine
end

