-- ==== Sys2Proof/Machine/Bitbang.lean ====
section
/-!
DEFINITION. BitbangProtocol (spec/42_bitbang.md): the traces of its four operations as lists of bus actions, and their
meanings.
-/

namespace Sys2Proof.Machine

/-- BUS_START (R113): 14 actions. -/
def startProgram (c : Config) : List BusOp :=
  [.drive true, .clock false, .wait c.tHoldUs,
    .clock true, .wait c.tHoldUs,
    .drive false, .wait c.tHoldUs,
    .clock false, .wait c.tHoldUs,
    .clock true, .wait c.tHoldUs,
    .drive true, .wait c.tHoldUs,
    .clock false]

/-- One low pulse of BUS_RESET (R114); the clock rests high after it. -/
def lowPulse (c : Config) : List BusOp := [.clock false, .wait c.tHoldUs, .clock true, .wait c.tHoldUs]

/-- BUS_RESET (R114): 51 actions. -/
def resetProgram (c : Config) : List BusOp :=
  .drive true :: (List.replicate 9 (lowPulse c)).flatten ++ startProgram c

/-- One written bit (R116). -/
def writeBit (c : Config) (b : Bool) : List BusOp :=
  [.drive b, .wait c.tHoldUs, .clock true, .wait c.tPulseUs, .clock false]

/-- BUS_WRITE_BYTE (R116): 46 actions, the last but two of them the acknowledge sample. -/
def writeProgram (c : Config) (value : Byte) : List BusOp :=
  ((bitsOfByte value).map (writeBit c)).flatten ++
    [.drive true, .wait c.tHoldUs, .clock true, .sample, .wait c.tPulseUs, .clock false]

/-- One read bit (R118). -/
def readBit (c : Config) : List BusOp := [.clock true, .sample, .wait c.tPulseUs, .clock false, .wait c.tHoldUs]

/-- BUS_READ_BYTE (R118): 49 actions. The ninth pulse is made for both values of `send_ack`, which decides only whether the
data line is driven low during it. -/
def readProgram (c : Config) (sendAck : Bool) : List BusOp :=
  [.drive true, .wait c.tHoldUs] ++ (List.replicate 8 (readBit c)).flatten ++
    [.drive (!sendAck), .wait c.tHoldUs, .clock true, .wait c.tPulseUs, .clock false, .wait c.tHoldUs, .drive true]

/-- `nack` (R80, R117): the sampled level itself. A written byte takes one sample. -/
def nackOf (samples : List Bool) : Bool := samples.headD true

/-- BUS_START. -/
def execBusStart (s : State) : Host.Outcome State Fault Refusal :=
  .next ((s.withBus (s.bus.run (startProgram s.cfg)).1).answer .main .ok [])

/-- BUS_RESET: also `sd_phase <- Idle` (R114). -/
def execBusReset (s : State) : Host.Outcome State Fault Refusal :=
  .next (((s.withBus (s.bus.run (resetProgram s.cfg)).1).withPhase .idle).answer .main .ok [])

/-- BUS_WRITE_BYTE. -/
def execBusWriteByte (value : Byte) (s : State) : Host.Outcome State Fault Refusal :=
  let r := s.bus.run (writeProgram s.cfg value)
  .next ((s.withBus r.1).answer .main .ok [boolByte (nackOf r.2)])

/-- BUS_READ_BYTE. -/
def execBusReadByte (sendAck : Bool) (s : State) : Host.Outcome State Fault Refusal :=
  let r := s.bus.run (readProgram s.cfg sendAck)
  .next ((s.withBus r.1).answer .main .ok [byteOfBits r.2])

end Sys2Proof.Machine
end

