-- ==== Sys2Proof/Machine/Binary32.lean ====
section
/-!
DEFINITION. IEEE 754 binary32 as far as `NUM_F32` (R152) needs it: rounding of a rational to nearest, ties to even, the three
operations, and the clamp. A finite value is the rational it stands for; the sign of a zero is not kept, since neither the
comparisons of the clamp nor the conversion to an integer see it. That a result too large rounds to an infinity and that an
infinity combines as IEEE 754 says is the standard's, which R152 names (PRESUMED, log entry 6).
-/

namespace Sys2Proof.Machine

/-- A binary32 value. -/
inductive F32 where
  | fin (q : Rat)
  | inf (negative : Bool)
  | nan
  deriving DecidableEq, Repr

/-- `2^e`. -/
def pow2 (e : Int) : Rat := if 0 ≤ e then ((2 ^ e.toNat : Nat) : Rat) else 1 / ((2 ^ (-e).toNat : Nat) : Rat)

/-- The exponent `e` with `2^e <= q < 2^(e+1)`, for a positive `q`. -/
def floorLog2 (q : Rat) : Int :=
  let k : Int := (Nat.log2 q.num.toNat : Int) - (Nat.log2 q.den : Int)
  if pow2 k ≤ q then k else k - 1

/-- A non-negative rational to the nearest integer, ties to even. -/
def roundHalfEven (q : Rat) : Nat :=
  let f := q.num.toNat / q.den
  let r := q.num.toNat % q.den
  if 2 * r < q.den then f
  else if q.den < 2 * r then f + 1
  else if f % 2 = 0 then f else f + 1

/-- The magnitude of a rational. -/
def magnitude (q : Rat) : Rat := if q < 0 then -q else q

/-- A rational to the nearest binary32 value: 24 significant bits, least exponent -149. Ties go to even; R152 says so of the
operations, and for a constant halfway between two values it is the model's choice (DESIGN CHOICE, log entry 17). -/
def F32.round (q : Rat) : F32 :=
  if q = 0 then .fin 0
  else
    let a := magnitude q
    let u := max (floorLog2 a - 23) (-149)
    let v := (roundHalfEven (a / pow2 u) : Rat) * pow2 u
    if pow2 128 ≤ v then .inf (decide (q < 0))
    else .fin (if q < 0 then -v else v)

/-- Addition. -/
def F32.add : F32 → F32 → F32
  | .fin a, .fin b => F32.round (a + b)
  | .fin _, .inf s => .inf s
  | .inf s, .fin _ => .inf s
  | .inf s, .inf t => if s = t then .inf s else .nan
  | .nan, _ => .nan
  | _, .nan => .nan

/-- Change of sign. -/
def F32.neg : F32 → F32
  | .fin a => .fin (-a)
  | .inf s => .inf (!s)
  | .nan => .nan

/-- Subtraction. -/
def F32.sub (a b : F32) : F32 := a.add b.neg

/-- Multiplication. -/
def F32.mul : F32 → F32 → F32
  | .fin a, .fin b => F32.round (a * b)
  | .fin a, .inf s => if a = 0 then .nan else .inf (s != decide (a < 0))
  | .inf s, .fin a => if a = 0 then .nan else .inf (s != decide (a < 0))
  | .inf s, .inf t => .inf (s != t)
  | .nan, _ => .nan
  | _, .nan => .nan

/-- `clamp(x, 0, 100)` (R151). What is no number stays none. -/
def F32.clampPercent : F32 → F32
  | .fin q => .fin (Sys2Proof.Machine.clampPercent q)
  | .inf negative => .fin (if negative then 0 else 100)
  | .nan => .nan

/-- Conversion to an integer toward zero; none where there is no integer. -/
def F32.trunc : F32 → Option Int
  | .fin q => some (Sys2Proof.trunc q)
  | .inf _ => none
  | .nan => none

end Sys2Proof.Machine
end

