-- ==== Sys2Proof/Machine/Convert.lean ====
section
/-!
DEFINITION. UnitConverter (spec/44_convert.md): CONVERT in the three arithmetics a configuration can name (R151, R152), and
TO_PACKED_BCD (R157 to R159).
-/

namespace Sys2Proof.Machine

/-- `dRH = C1 + C2*H + C3*H*H` (R151). -/
def linearHumidity (c : Config) (h : Nat) : Rat := c.c1 + c.c2 * h + c.c3 * h * h

/-- `dT = D1 + D2*T` (R151). -/
def degrees (c : Config) (t : Nat) : Rat := c.d1 + c.d2 * t

/-- `dRHc = (dT - 25)*(T1 - T2*H) + dRH` (R151). -/
def compensatedHumidity (c : Config) (t h : Nat) : Rat :=
  (degrees c t - 25) * (c.t1 - c.t2 * h) + linearHumidity c h

/-- The temperature in `NUM_EXACT`: `trunc(10 * dT)`, of the unclamped `dT` (R151). -/
def temperatureExact (c : Config) (t : Nat) : Int := trunc (10 * degrees c t)

/-- The humidity in `NUM_EXACT`: `trunc(10 * dRHcl)` (R151). -/
def humidityExact (c : Config) (t h : Nat) : Int := trunc (10 * clampPercent (compensatedHumidity c t h))

/-- `dT` in `NUM_F32` (R152). -/
def degrees32 (c : Config) (t : Nat) : F32 := (F32.round c.d1).add ((F32.round c.d2).mul (.fin t))

/-- `dRH = (C1 + (C2*H)) + (C3*(H*H))` in `NUM_F32` (R152). -/
def linearHumidity32 (c : Config) (h : Nat) : F32 :=
  ((F32.round c.c1).add ((F32.round c.c2).mul (.fin h))).add ((F32.round c.c3).mul ((F32.fin h).mul (.fin h)))

/-- `dRHc = ((dT - 25) * (T1 - (T2*H))) + dRH` in `NUM_F32` (R152). -/
def compensatedHumidity32 (c : Config) (t h : Nat) : F32 :=
  (((degrees32 c t).sub (.fin 25)).mul ((F32.round c.t1).sub ((F32.round c.t2).mul (.fin h)))).add
    (linearHumidity32 c h)

/-- The temperature in `NUM_F32` (R152): scaling is `x * 10`, then conversion toward zero. -/
def temperature32 (c : Config) (t : Word) : Word :=
  match ((degrees32 c t.toNat).mul (.fin 10)).trunc with
  | some z => toI16 z (Config.unstatedTemperature c.toParameters t)
  | none => Config.unstatedTemperature c.toParameters t

/-- The humidity in `NUM_F32` (R152). -/
def humidity32 (c : Config) (t h : Word) : Word :=
  match ((compensatedHumidity32 c t.toNat h.toNat).clampPercent.mul (.fin 10)).trunc with
  | some z => BitVec.ofInt 16 z
  | none => BitVec.ofNat 16 (Config.unstatedHumidity c.toParameters t h).val

/-- The `temperature` result of CONVERT, in the arithmetic of the configuration (R150 to R152). -/
def convertTemperature (c : Config) (rawTemp : Word) : Word :=
  match c.num with
  | .exact => toI16 (temperatureExact c rawTemp.toNat) (Config.unstatedTemperature c.toParameters rawTemp)
  | .binary32 => temperature32 c rawTemp
  | .other id => Config.otherTemperature id c.toParameters rawTemp

/-- The `humidity` result of CONVERT, in the arithmetic of the configuration (R150 to R153). -/
def convertHumidity (c : Config) (rawTemp rawHumidity : Word) : Word :=
  match c.num with
  | .exact => BitVec.ofInt 16 (humidityExact c rawTemp.toNat rawHumidity.toNat)
  | .binary32 => humidity32 c rawTemp rawHumidity
  | .other id => BitVec.ofNat 16 (Config.otherHumidity id c.toParameters rawTemp rawHumidity).val

/-- CONVERT (R150): reads and writes no register. -/
def execConvert (rawTemp rawHumidity : Word) (s : State) : Host.Outcome State Fault Refusal :=
  .next (s.answer .main .ok
    (wordBytes (convertTemperature s.cfg rawTemp) ++ wordBytes (convertHumidity s.cfg rawTemp rawHumidity)))

/-- The packed word of a magnitude up to 7999 and a sign (R157, R158): sign, thousands, hundreds, tens, units. -/
def packDigits (negative : Bool) (m : Nat) : Word :=
  BitVec.ofBool negative ++ BitVec.ofNat 3 (m / 1000) ++ BitVec.ofNat 4 (m / 100 % 10) ++
    BitVec.ofNat 4 (m / 10 % 10) ++ BitVec.ofNat 4 (m % 10)

/-- Status and word of TO_PACKED_BCD (R157, R159). -/
def packedBcd (value : Word) : Status × Word :=
  if 7999 < value.toInt then (.saturated, 0x7999)
  else if value.toInt < -7999 then (.saturated, 0xF999)
  else (.ok, packDigits (decide (value.toInt < 0)) value.toInt.natAbs)

/-- TO_PACKED_BCD (R157): reads and writes no register. -/
def execToPackedBcd (value : Word) (s : State) : Host.Outcome State Fault Refusal :=
  let r := packedBcd value
  .next (s.answer .main r.1 (wordBytes r.2))

end Sys2Proof.Machine
end

