-- ==== Sys2Proof/Machine/Crc.lean ====
section
/-!
DEFINITION. CrcChecker (spec/41_crc.md).
-/

namespace Sys2Proof.Machine

/-- `TableRead(i)` (R50). The index is an 8-bit value, so it is always in range. -/
def tableRead (c : Config) (i : Byte) : Byte := c.crcTable[i.toNat]'(i.isLt)

/-- The forward register after the bytes (R101). -/
def crcFwd (c : Config) (bytes : List Byte) : Byte := bytes.foldl (fun crc b => tableRead c (crc ^^^ b)) 0

/-- The check value of a byte sequence of any length (R100, R102). -/
def crc8 (c : Config) (bytes : List Byte) : Byte := rev8 (crcFwd c bytes)

/-- CRC8 (R100): writes no register. -/
def execCrc8 (data : List Byte) (s : State) : Host.Outcome State Fault Refusal :=
  .next (s.answer .main .ok [crc8 s.cfg data])

end Sys2Proof.Machine
end

