-- ==== Sys2Proof/Machine/Debounce.lean ====
section
/-!
DEFINITION. DebounceEngine (spec/45_debounce.md).
-/

namespace Sys2Proof.Machine

/-- Step 3 of DEBOUNCE_TICK (R173 to R178): from the level `st` after step 2, the sequence state and the timer, the new
sequence state, the new timer and the event. -/
def sequenceNext (c : Config) (st : Bool) (sq : Seq) (ht : Byte) : Seq × Byte × Event :=
  let t := ht + 1
  match sq with
  | .idle => if st then (.armedShortOrHold, 0, .none) else (.idle, ht, .none)
  | .armedShortOrHold =>
    if !st then (.idle, t, .pressed)
    else if t.toNat = c.shortPressLimit then (.hold1, 0, .hold)
    else (.armedShortOrHold, t, .none)
  | .hold1 =>
    if !st then (.idle, ht, .none)
    else if t.toNat = c.longPressFirstPeriod then (.holdRepeat, 0, .hold)
    else (.hold1, t, .none)
  | .holdRepeat =>
    if !st then (.idle, ht, .none)
    else if t.toNat = c.longPressRepeatPeriod then (.holdRepeat, 0, .hold)
    else (.holdRepeat, t, .none)

/-- Step 1 of DEBOUNCE_TICK (R171). -/
def shiftIn (fs : Byte) (sample : Bool) : Byte := (fs <<< 1) ||| boolByte sample

/-- The whole of DEBOUNCE_TICK on one channel (R170, R179). -/
def Channel.tick (c : Config) (sample : Bool) (k : Channel) : Channel :=
  let fs := shiftIn k.filterShift sample
  let st := settledNext fs k.settled
  let r := sequenceNext c st k.seq k.holdTimer
  { filterShift := fs, settled := st, seq := r.1, holdTimer := r.2.1, eventOut := r.2.2 }

/-- DEBOUNCE_TICK (R170). -/
def execDebounceTick (ch : Byte) (sample : Bool) (s : State) : Host.Outcome State Fault Refusal :=
  let k := (s.channel ch).tick s.cfg sample
  .next ((s.withChannel ch k).answer .tick .ok [eventByte k.eventOut])

/-- READ_EVENT (R182): does not clear the latch. -/
def execReadEvent (ch : Byte) (s : State) : Host.Outcome State Fault Refusal :=
  .next (s.answer .main .ok [eventByte (s.channel ch).eventOut])

end Sys2Proof.Machine
end

