-- ==== Sys2Proof/Machine/Sensor.lean ====
section
/-!
DEFINITION. SensorDriver (spec/43_sensor.md): its six operations, and the micro-steps of a MEASURE or MEASURE_AND_CHECK in
progress (R58, R140, R141).
-/

namespace Sys2Proof.Machine

/-- START_MEASUREMENT on the bus (R134): the start waveform, then the command byte. 60 actions. -/
def commandProgram (c : Config) (kind : Kind) : List BusOp :=
  startProgram c ++ writeProgram c (commandByte c kind)

/-- READ_RESULT on the bus (R138): three bytes, acknowledged, acknowledged, not acknowledged. 147 actions. -/
def resultProgram (c : Config) : List BusOp := readProgram c true ++ readProgram c true ++ readProgram c false

/-- The first byte read: bits 15:8 of the value (R56, R138). -/
def resultHi (samples : List Bool) : Byte := byteOfBits (samples.take 8)

/-- The second byte read: bits 7:0 of the value. -/
def resultLo (samples : List Bool) : Byte := byteOfBits ((samples.drop 8).take 8)

/-- The third byte read: the checksum. -/
def resultCs (samples : List Bool) : Byte := byteOfBits ((samples.drop 16).take 8)

/-- Ready is the data line sampled low (R136, R137). A ready check takes one sample. -/
def readyOf (samples : List Bool) : Bool := !samples.headD true

/-- Whether the checksum byte is that of the frame command, high, low (R57, R139). -/
def checksumMatches (c : Config) (kind : Kind) (hi lo cs : Byte) : Bool :=
  crc8 c [commandByte c kind, hi, lo] == cs

/-- START_MEASUREMENT (R134). -/
def execStartMeasurement (kind : Kind) (s : State) : Host.Outcome State Fault Refusal :=
  .next (
    if acceptsStart s.sensor.phase then
      let r := s.bus.run (commandProgram s.cfg kind)
      let s1 := (s.withKind kind).withBus r.1
      if nackOf r.2 then (s1.withPhase .idle).answerError .main .busNack
      else (s1.withPhase .started).answer .main .ok []
    else s.answerError .main .refused)

/-- POLL_DONE (R136). -/
def execPollDone (s : State) : Host.Outcome State Fault Refusal :=
  .next (
    if acceptsPoll s.sensor.phase then
      let r := s.bus.run [.sample]
      let s1 := s.withBus r.1
      if readyOf r.2 then (s1.withPhase .read).answer .main .ok [boolByte true]
      else (s1.withPhase .polling).answer .main .ok [boolByte false]
    else s.answerError .main .refused)

/-- READ_RESULT (R138). -/
def execReadResult (s : State) : Host.Outcome State Fault Refusal :=
  .next (
    if acceptsRead s.sensor.phase then
      let r := s.bus.run (resultProgram s.cfg)
      ((s.withBus r.1).withPhase .done).answer .main .ok [resultHi r.2, resultLo r.2, resultCs r.2]
    else s.answerError .main .refused)

/-- VERIFY_CRC (R139): accepted in every phase; touches neither a register nor the bus. -/
def execVerifyCrc (kind : Kind) (hi lo cs : Byte) (s : State) : Host.Outcome State Fault Refusal :=
  .next (
    if checksumMatches s.cfg kind hi lo cs then s.answer .main .ok []
    else s.answerError .main .checksum)

/-- The start of a stage: the micro-steps it has. -/
def stageStart (c : Config) (kind : Kind) (checked : Bool) (stage : Stage) : Measure where
  checked := checked
  stage := stage
  todo := match stage with
    | .command => commandProgram c kind
    | .check => [.sample]
    | .pause => [.wait c.pollIntervalUs]
    | .read => resultProgram c
  got := []

/-- The first check of MEASURE and MEASURE_AND_CHECK (R140): either the request is refused, or the operation is in progress
from now on, its micro-steps still to come, and no response is given yet (log entry 8). -/
def acceptMeasure (checked : Bool) (kind : Kind) (s : State) : State :=
  if acceptsStart s.sensor.phase then
    { s with
      sensor := { s.sensor with kind := kind, running := some (stageStart s.cfg kind checked .command) }
      mainResponse := [] }
  else s.answerError .main .refused

/-- MEASURE (R140): it is accepted or refused here, and its micro-steps are taken by `advance`. -/
def execMeasure (kind : Kind) (s : State) : Host.Outcome State Fault Refusal :=
  .next (acceptMeasure false kind s)

/-- MEASURE_AND_CHECK (R142): likewise. -/
def execMeasureAndCheck (kind : Kind) (s : State) : Host.Outcome State Fault Refusal :=
  .next (acceptMeasure true kind s)

/-- Ends the operation in progress with a phase and a response. -/
def finishMeasure (phase : Phase) (st : Status) (payload : List Byte) (s : State) : State :=
  (s.withSensor { s.sensor with phase := phase, running := none }).answer .main st payload

/-- Goes on with a further stage of the operation in progress. -/
def enterStage (m : Measure) (stage : Stage) (s : State) : State :=
  s.withSensor { s.sensor with running := some (stageStart s.cfg s.sensor.kind m.checked stage) }

/-- What follows a stage's last micro-step (R140, R142), in the same micro-step. `sd_poll` is cleared where the pseudocode
clears it, after the acknowledge (log entry 15). -/
def endStage (m : Measure) (s : State) : State :=
  match m.stage with
  | .command =>
    if nackOf m.got then finishMeasure .idle .busNack [] s
    else enterStage m .check (s.withSensor { s.sensor with phase := .started, poll := 0 })
  | .check =>
    let s1 := s.withSensor { s.sensor with poll := s.sensor.poll + 1 }
    if readyOf m.got then enterStage m .read (s1.withPhase .read)
    else enterStage m .pause (s1.withPhase .polling)
  | .pause =>
    if s.sensor.poll = s.cfg.pollMax then finishMeasure .idle .timeout [] s
    else enterStage m .check s
  | .read =>
    if m.checked && !checksumMatches s.cfg s.sensor.kind (resultHi m.got) (resultLo m.got) (resultCs m.got) then
      finishMeasure .done .checksum [] s
    else finishMeasure .done .ok [resultHi m.got, resultLo m.got] s

/-- One micro-step of the operation in progress (R141): one bus action, and what follows it. Without an operation in
progress nothing happens. -/
def advance (s : State) : State :=
  match s.sensor.running with
  | none => s
  | some m =>
    match m.todo with
    | [] => endStage m s
    | op :: rest =>
      let r := busStep op (s.bus, m.got)
      let m1 : Measure := { m with todo := rest, got := r.2 }
      let s1 := (s.withBus r.1).withSensor { s.sensor with running := some m1 }
      if rest.isEmpty then endStage m1 s1 else s1

end Sys2Proof.Machine
end

