-- ==== Sys2Proof/Machine/Thermal.lean ====
section
/-!
DEFINITION. ThermalSupervisor (spec/46_thermal.md).
-/

namespace Sys2Proof.Machine

/-- `buffer[pos]` (R52); 0 for a position outside the ring, which no run has (log entry 16). -/
def Thermal.outgoing (t : Thermal) : Nat := t.buffer.getD t.pos 0

/-- The update of R191, then the gate of R192 on the new sum. -/
def Thermal.sample (c : Config) (v : Nat) (t : Thermal) : Thermal :=
  let sum := t.sum - t.outgoing + v
  { buffer := t.buffer.set t.pos v
    sum := sum
    pos := (t.pos + 1) % c.n
    tripped := trippedNext c sum t.tripped }

/-- THERMAL_SAMPLE (R190). -/
def execThermalSample (newSample : Word) (s : State) : Host.Outcome State Fault Refusal :=
  .next ((s.withThermal (s.thermal.sample s.cfg newSample.toNat)).answer .tick .ok [])

/-- IS_OVERTEMP (R195): writes nothing. -/
def execIsOvertemp (s : State) : Host.Outcome State Fault Refusal :=
  .next (s.answer .main .ok [boolByte s.thermal.tripped])

end Sys2Proof.Machine
end

