-- ==== Sys2Proof/Machine/Dispatch.lean ====
section
/-!
DEFINITION. One arm per operation (spec/30_encoding.md R74), in the table's order.
-/

namespace Sys2Proof.Machine

def exec (i : Instr) (s : State) : Host.Outcome State Fault Refusal :=
  match i with
  | .crc8 data => Sys2Proof.Machine.execCrc8 data s
  | .busReset => Sys2Proof.Machine.execBusReset s
  | .busStart => Sys2Proof.Machine.execBusStart s
  | .busWriteByte value => Sys2Proof.Machine.execBusWriteByte value s
  | .busReadByte sendAck => Sys2Proof.Machine.execBusReadByte sendAck s
  | .startMeasurement kind => Sys2Proof.Machine.execStartMeasurement kind s
  | .pollDone => Sys2Proof.Machine.execPollDone s
  | .readResult => Sys2Proof.Machine.execReadResult s
  | .verifyCrc kind hi lo cs => Sys2Proof.Machine.execVerifyCrc kind hi lo cs s
  | .measure kind => Sys2Proof.Machine.execMeasure kind s
  | .measureAndCheck kind => Sys2Proof.Machine.execMeasureAndCheck kind s
  | .convert rawTemp rawHumidity => Sys2Proof.Machine.execConvert rawTemp rawHumidity s
  | .toPackedBcd value => Sys2Proof.Machine.execToPackedBcd value s
  | .debounceTick ch sample => Sys2Proof.Machine.execDebounceTick ch sample s
  | .readEvent ch => Sys2Proof.Machine.execReadEvent ch s
  | .thermalSample newSample => Sys2Proof.Machine.execThermalSample newSample s
  | .isOvertemp => Sys2Proof.Machine.execIsOvertemp s
  | .setDuty value => Sys2Proof.Machine.execSetDuty value s
  | .getDuty => Sys2Proof.Machine.execGetDuty s

end Sys2Proof.Machine
end

