-- ==== Sys2Proof/Machine/Requests.lean ====
section
/-!
DEFINITION. How a request is served (R218) and what the block does next (R58, R60): what stands for a fetch on a machine that
has no program counter and fetches nothing (R21).
-/

namespace Sys2Proof.Machine

/-- One request presented on port `p`, the checks in the order of R218: it decodes, else ILLEGAL; the port accepts it, else
REFUSED; the phase check and the execution are the operation's own. -/
def serve (p : Port) (bytes : List Byte) (s : State) : Host.Outcome State Fault Refusal :=
  match decodeRequest s.cfg bytes with
  | .error _ => .next (s.answerError p .illegal)
  | .ok i => if i.port = p then exec i s else .next (s.answerError p .refused)

/-- What happens next. A TICK request is served at once, also between two micro-steps of an operation in progress; a MAIN
request waits until that operation has ended (R58, R219). With nothing presented, an operation in progress goes on, and an
idle block stays as it is (log entry 3). -/
def serveNext (s : State) : Host.Outcome State Fault Refusal :=
  match s.inputs with
  | [] => .next (advance s)
  | .reset :: rest => .next (s.withInputs rest).blockReset
  | .proceed :: rest => .next (advance (s.withInputs rest))
  | .request .tick bytes :: rest => serve .tick bytes (s.withInputs rest)
  | .request .main bytes :: rest =>
    if s.sensor.running.isSome then .next (advance s) else serve .main bytes (s.withInputs rest)

/-- The port a request's bytes belong on; MAIN for a request that does not decode. -/
def portOf (bytes : List Byte) : Port :=
  match decode bytes with
  | .ok i => i.port
  | .error _ => .main

/-- The state with a request presented next on the port that accepts it, and served at the next step: for a MAIN request no
operation is in progress (log entry 7). -/
def State.present (s : State) (bytes : List Byte) : State :=
  match portOf bytes with
  | .tick => s.withInputs (.request .tick bytes :: s.inputs)
  | .main =>
    (s.withInputs (.request .main bytes :: s.inputs)).withSensor { s.sensor with running := none }

end Sys2Proof.Machine
end

