-- ==== Sys2Proof/Machine/Step.lean ====
section
/-!
DEFINITION. One step of the block: one request served, one micro-step of an operation in progress, or one reset event.
-/

namespace Sys2Proof.Machine

/-- One step (R58, R60). -/
def step (s : State) : Host.Outcome State Fault Refusal := serveNext s

/-- The state with the request of a row of spec/opcode_table.json presented next. -/
def State.withFetchWord (s : State) (nbits w : Nat) : State := s.present (tableBytes nbits w)

end Sys2Proof.Machine
end

