-- ==== Sys2Proof/Safety.lean ====
section
/-!
DEFINITION. The terms claims use: the invariants of the block's registers (spec/10_state.md R37 to R39 and the widths of R26,
R32 to R36), a MEASURE read as one uninterrupted piece of work (R140, R142), and which part of the state belongs to which
port (R41).
-/

namespace Sys2Proof.Machine

/-- The two line registers after a list of actions. -/
def pinsAfter (program : List BusOp) (pins : Bool × Bool) : Bool × Bool :=
  program.foldl (fun p op =>
    match op with
    | .drive v => (v, p.2)
    | .clock v => (p.1, v)
    | .wait _ => p
    | .sample => p) pins

/-- How many samples a list of actions takes. -/
def samplesIn (program : List BusOp) : Nat := program.count .sample

/-- What an operation in progress is like between two micro-steps: the micro-steps left are the end of its stage's, the
samples taken are those of the micro-steps done, the lines come back to rest, and the registers are those of the stage
(R26, R130, R140). -/
def MeasureOk (s : State) (m : Measure) : Prop :=
  m.todo ≠ [] ∧
  m.todo <:+ (stageStart s.cfg s.sensor.kind m.checked m.stage).todo ∧
  m.got.length + samplesIn m.todo = samplesIn (stageStart s.cfg s.sensor.kind m.checked m.stage).todo ∧
  pinsAfter m.todo (s.bus.dataDrv, s.bus.sck) = (true, false) ∧
  match m.stage with
  | .command => acceptsStart s.sensor.phase = true
  | .check => acceptsPoll s.sensor.phase = true ∧ s.sensor.poll < s.cfg.pollMax
  | .pause => s.sensor.phase = .polling ∧ 1 ≤ s.sensor.poll
  | .read => s.sensor.phase = .read

/-- The invariants every step keeps. -/
structure State.Inv (s : State) : Prop where
  /-- One entry for each button (R27 to R31). -/
  channels_length : s.channels.length = s.cfg.nb
  /-- `N` entries (R32). -/
  buffer_length : s.thermal.buffer.length = s.cfg.n
  /-- Every entry has `SAMPLE_BITS` bits (R32). -/
  buffer_fits : ∀ v ∈ s.thermal.buffer, v < 2 ^ s.cfg.sampleBits
  /-- R37. -/
  sum_eq : s.thermal.sum = s.thermal.buffer.sum
  /-- R38. -/
  pos_lt : s.thermal.pos < s.cfg.n
  /-- R38. -/
  duty_lt : s.duty.toNat < s.cfg.period
  /-- R26. -/
  poll_le : s.sensor.poll ≤ s.cfg.pollMax
  /-- R39, when no operation is in progress. -/
  bus_rest : s.sensor.running = none → s.bus.dataDrv = true ∧ s.bus.sck = false
  /-- The operation in progress. -/
  measure_ok : ∀ m, s.sensor.running = some m → MeasureOk s m

/-- The poll loop of R140: at most the given number of ready checks, each failed one followed by its wait. The bus after it,
the checks made so far, and whether the peer was ready. -/
def pollLoop (c : Config) : Nat → Bus → Nat → Bus × Nat × Bool
  | 0, b, poll => (b, poll, false)
  | k + 1, b, poll =>
    let r := b.run [.sample]
    if readyOf r.2 then (r.1, poll + 1, true)
    else pollLoop c k (r.1.run [.wait c.pollIntervalUs]).1 (poll + 1)

/-- MEASURE (R140) or, `checked`, MEASURE_AND_CHECK (R142) from its request to its response with nothing served in between:
the pseudocode of the two rules as one piece of work. -/
def measureAtOnce (checked : Bool) (kind : Kind) (s : State) : State :=
  if acceptsStart s.sensor.phase then
    let command := s.bus.run (commandProgram s.cfg kind)
    if nackOf command.2 then
      ((s.withBus command.1).withSensor
        { s.sensor with phase := .idle, kind := kind, running := none }).answerError .main .busNack
    else
      let loop := pollLoop s.cfg s.cfg.pollMax command.1 0
      if loop.2.2 then
        let result := loop.1.run (resultProgram s.cfg)
        let s1 := (s.withBus result.1).withSensor
          { phase := .done, kind := kind, poll := loop.2.1, running := none }
        let hi := resultHi result.2
        let lo := resultLo result.2
        if checked && !checksumMatches s.cfg kind hi lo (resultCs result.2) then s1.answerError .main .checksum
        else s1.answer .main .ok [hi, lo]
      else
        ((s.withBus loop.1).withSensor
          { phase := .idle, kind := kind, poll := loop.2.1, running := none }).answerError .main .timeout
  else s.answerError .main .refused

/-- Two states agree on what the MAIN port owns (R41): the bus, SensorDriver, the duty, and the MAIN response. -/
def SameMain (s t : State) : Prop :=
  t.cfg = s.cfg ∧ t.bus = s.bus ∧ t.sensor = s.sensor ∧ t.duty = s.duty ∧ t.mainResponse = s.mainResponse

/-- Two states agree on what the TICK port owns (R41): the channels, the window with its trip flag, and the TICK response. -/
def SameTick (s t : State) : Prop :=
  t.cfg = s.cfg ∧ t.channels = s.channels ∧ t.thermal = s.thermal ∧ t.tickResponse = s.tickResponse

/-- An input that may fall between the micro-steps of an operation in progress: a TICK request, or leave to go on. -/
def Input.betweenSteps : Input → Bool
  | .request .tick _ => true
  | .request .main _ => false
  | .proceed => true
  | .reset => false

/-- A TICK request. -/
def Input.isTick : Input → Bool
  | .request .tick _ => true
  | .request .main _ => false
  | .proceed => false
  | .reset => false

/-- The samples that play the three bytes of a result (R55, R138). -/
def resultBits (hi lo cs : Byte) : List Bool := bitsOfByte hi ++ bitsOfByte lo ++ bitsOfByte cs

/-- How many micro-steps a MEASURE has at most (R144). -/
def measureBound (c : Config) : Nat := 60 + 2 * c.pollMax + 147

/-- The bits agree with what is settled about the peer's next answers; where nothing is settled they are free (R63). -/
def PeerAnswers (b : Bus) (bits : List Bool) : Prop :=
  ∀ (k : Nat) (x y : Bool), bits[k]? = some x → b.peer[k]? = some y → x = y

/-- The trace of BUS_START (R113), action by action. -/
def startTrace (c : Config) : List BusAction :=
  [.d true, .c false, .w c.tHoldUs,
    .c true, .w c.tHoldUs,
    .d false, .w c.tHoldUs,
    .c false, .w c.tHoldUs,
    .c true, .w c.tHoldUs,
    .d true, .w c.tHoldUs,
    .c false]

/-- The trace of BUS_RESET (R114). -/
def resetTrace (c : Config) : List BusAction :=
  [.d true] ++ (List.replicate 9 [.c false, .w c.tHoldUs, .c true, .w c.tHoldUs]).flatten ++ startTrace c

/-- The trace of BUS_WRITE_BYTE (R116) with the acknowledge sample it took. -/
def writeTrace (c : Config) (value : Byte) (nack : Bool) : List BusAction :=
  ([7, 6, 5, 4, 3, 2, 1, 0].map
    (fun i => [.d (value.getLsbD i), .w c.tHoldUs, .c true, .w c.tPulseUs, .c false])).flatten ++
    [.d true, .w c.tHoldUs, .c true, .s nack, .w c.tPulseUs, .c false]

/-- The trace of BUS_READ_BYTE (R118) with the byte it sampled. -/
def readTrace (c : Config) (value : Byte) (sendAck : Bool) : List BusAction :=
  [.d true, .w c.tHoldUs] ++
    ([7, 6, 5, 4, 3, 2, 1, 0].map
      (fun i => [.c true, .s (value.getLsbD i), .w c.tPulseUs, .c false, .w c.tHoldUs])).flatten ++
    [.d (if sendAck then false else true), .w c.tHoldUs, .c true, .w c.tPulseUs, .c false, .w c.tHoldUs, .d true]

/-- The trace of the poll loop of R140 after so many failed ready checks. -/
def failedChecksTrace (c : Config) (fails : Nat) : List BusAction :=
  (List.replicate fails [BusAction.s true, .w c.pollIntervalUs]).flatten

/-- `v` is the finite binary32 value with significand `m` and exponent `e`: 24 significant bits, all of them used unless the
exponent is the least. -/
def IsBinary32 (m e : Int) (v : Rat) : Prop :=
  -149 ≤ e ∧ e ≤ 104 ∧ |m| < 2 ^ 24 ∧ (e = -149 ∨ 2 ^ 23 ≤ |m|) ∧ v = m * 2 ^ e

/-- A rational rounded to binary32; none where that overflows. -/
def rounded (q : Rat) : Option Rat :=
  match F32.round q with
  | .fin v => some v
  | .inf _ => none
  | .nan => none

/-- `dT = D1 + (D2*T)` as R152 orders it, every constant and every result rounded; none where one overflows. -/
def degreesRounded (p : Parameters) (t : Rat) : Option Rat := do
  let d1 ← rounded p.d1
  let d2 ← rounded p.d2
  let product ← rounded (d2 * t)
  rounded (d1 + product)

/-- `dRH = (C1 + (C2*H)) + (C3*(H*H))`, likewise. -/
def linearRounded (p : Parameters) (h : Rat) : Option Rat := do
  let c1 ← rounded p.c1
  let c2 ← rounded p.c2
  let c3 ← rounded p.c3
  let linear ← rounded (c2 * h)
  let low ← rounded (c1 + linear)
  let square ← rounded (h * h)
  let high ← rounded (c3 * square)
  rounded (low + high)

/-- `dRHc = ((dT - 25) * (T1 - (T2*H))) + dRH`, likewise. -/
def humidityRounded (p : Parameters) (t h : Rat) : Option Rat := do
  let dRH ← linearRounded p h
  let dT ← degreesRounded p t
  let t1 ← rounded p.t1
  let t2 ← rounded p.t2
  let above ← rounded (dT - 25)
  let slope ← rounded (t2 * h)
  let factor ← rounded (t1 - slope)
  let correction ← rounded (above * factor)
  rounded (correction + dRH)

/-- The value a packed word stands for (R160). -/
def bcdValue (w : Word) : Int :=
  (if w.getLsbD 15 then -1 else 1) *
    ((1000 * (w.extractLsb' 12 3).toNat + 100 * (w.extractLsb' 8 4).toNat + 10 * (w.extractLsb' 4 4).toNat +
      (w.extractLsb' 0 4).toNat : Nat) : Int)

/-- A channel after ticks with these samples, in order. -/
def Channel.ticks (c : Config) (samples : List Bool) (k : Channel) : Channel :=
  samples.foldl (fun k b => k.tick c b) k

end Sys2Proof.Machine
end

