-- ==== Sys2Proof/Certificates/Slice0/Obligations.lean ====
section
/-!
DEFINITION. The statements for the provers. Each docstring names the rule of spec/ that the statement formalises, or says
that it rests on a choice of the model's.
-/

open Sys2Proof Sys2Proof.Machine

/-! Encoding -/

/-- R70, R72, R74, R75: decoding the request of a well-formed operation gives the operation, every operand at every
value. -/
def Obligations.DecodeInvertsEncode : Prop :=
  ∀ (c : Config) (i : Instr), i.wf c = true → decodeRequest c (encode i) = .ok i

/-- R72, R76: a request that decodes is the encoding of one well-formed operation and of no other. -/
def Obligations.DecodedRequestIsItsEncoding : Prop :=
  ∀ (c : Config) (bytes : List Byte) (i : Instr),
    decodeRequest c bytes = .ok i → i.wf c = true ∧ encode i = bytes

/-- R76: the empty request and every reserved opcode, listed as the rule lists them, do not decode. -/
def Obligations.ReservedOpcodesDoNotDecode : Prop :=
  (∀ c : Config, decodeRequest c [] = .error .empty) ∧
  ∀ (c : Config) (op : Byte) (rest : List Byte),
    (op.toNat ≤ 0x0F ∨ (0x11 ≤ op.toNat ∧ op.toNat ≤ 0x1F) ∨ (0x24 ≤ op.toNat ∧ op.toNat ≤ 0x2F) ∨
      (0x36 ≤ op.toNat ∧ op.toNat ≤ 0x3F) ∨ (0x42 ≤ op.toNat ∧ op.toNat ≤ 0x4F) ∨
      (0x52 ≤ op.toNat ∧ op.toNat ≤ 0x5F) ∨ (0x62 ≤ op.toNat ∧ op.toNat ≤ 0x6F) ∨ 0x72 ≤ op.toNat) →
    decodeRequest c (op :: rest) = .error (.reservedOpcode op)

/-- R72, R70, R74: a request whose length is not the one its opcode's format gives does not decode. -/
def Obligations.WrongLengthDoesNotDecode : Prop :=
  (∀ (c : Config) (op : Byte) (len : Nat) (rest : List Byte),
    (op, len) ∈ ([(0x20, 1), (0x21, 1), (0x22, 2), (0x23, 2), (0x30, 2), (0x31, 1), (0x32, 1), (0x33, 5), (0x34, 2),
      (0x35, 2), (0x40, 5), (0x41, 3), (0x50, 3), (0x51, 2), (0x60, 3), (0x61, 1), (0x70, 2), (0x71, 1)] :
        List (Byte × Nat)) →
    1 + rest.length ≠ len → decodeRequest c (op :: rest) = .error (.wrongLength op)) ∧
  (∀ c : Config, decodeRequest c [0x10] = .error (.wrongLength 0x10)) ∧
  ∀ (c : Config) (n : Byte) (data : List Byte),
    data.length ≠ n.toNat → decodeRequest c (0x10 :: n :: data) = .error (.wrongLength 0x10)

/-- R75: the operand domains, and that every other operand takes every value. -/
def Obligations.OperandDomainsAreChecked : Prop :=
  (∀ (c : Config) (a hi lo cs ch : Byte), 1 < a.toNat →
    decodeRequest c [0x23, a] = .error (.operandOutOfDomain 0x23) ∧
    decodeRequest c [0x30, a] = .error (.operandOutOfDomain 0x30) ∧
    decodeRequest c [0x33, a, hi, lo, cs] = .error (.operandOutOfDomain 0x33) ∧
    decodeRequest c [0x34, a] = .error (.operandOutOfDomain 0x34) ∧
    decodeRequest c [0x35, a] = .error (.operandOutOfDomain 0x35) ∧
    decodeRequest c [0x50, ch, a] = .error (.operandOutOfDomain 0x50)) ∧
  (∀ (c : Config) (ch : Byte) (b : Byte), c.nb ≤ ch.toNat →
    decodeRequest c [0x50, ch, b] = .error (.operandOutOfDomain 0x50) ∧
    decodeRequest c [0x51, ch] = .error (.operandOutOfDomain 0x51)) ∧
  (∀ (c : Config) (hi lo : Byte), 2 ^ c.sampleBits ≤ 256 * hi.toNat + lo.toNat →
    decodeRequest c [0x60, hi, lo] = .error (.operandOutOfDomain 0x60)) ∧
  (∀ (c : Config) (n : Byte) (data : List Byte), data.length ≠ n.toNat →
    decodeRequest c (0x10 :: n :: data) = .error (.wrongLength 0x10)) ∧
  ∀ (c : Config) (a b d e : Byte),
    decodeRequest c [0x22, a] = .ok (.busWriteByte a) ∧
    decodeRequest c [0x33, 0, b, d, e] = .ok (.verifyCrc .temperature b d e) ∧
    decodeRequest c [0x33, 1, b, d, e] = .ok (.verifyCrc .humidity b d e) ∧
    decodeRequest c [0x40, a, b, d, e] = .ok (.convert (a ++ b) (d ++ e)) ∧
    decodeRequest c [0x41, a, b] = .ok (.toPackedBcd (a ++ b)) ∧
    decodeRequest c [0x70, a] = .ok (.setDuty a)

/-- R85 and vector V-ENC-19: words the spec writes out decode to the operations they stand for. -/
def Obligations.SpecWordsDecode : Prop :=
  ∀ c : Config,
    decodeRequest c [0x10, 0x03, 0x03, 0x01, 0x90] = .ok (.crc8 [0x03, 0x01, 0x90]) ∧
    decodeRequest c [0x20] = .ok .busReset ∧
    decodeRequest c [0x22, 0x1E] = .ok (.busWriteByte 0x1E) ∧
    decodeRequest c [0x30, 0x01] = .ok (.startMeasurement .humidity) ∧
    decodeRequest c [0x33, 0x00, 0x01, 0x90, 0xE0] = .ok (.verifyCrc .temperature 0x01 0x90 0xE0) ∧
    decodeRequest c [0x35, 0x00] = .ok (.measureAndCheck .temperature) ∧
    decodeRequest c [0x40, 0x19, 0x64, 0x05, 0xDC] = .ok (.convert 6500 1500) ∧
    decodeRequest c [0x41, 0xFE, 0x98] = .ok (.toPackedBcd (-360)) ∧
    decodeRequest c [0x50, 0x00, 0x01] = .ok (.debounceTick 0 true) ∧
    decodeRequest c [0x51, 0x00] = .ok (.readEvent 0) ∧
    decodeRequest c [0x61] = .ok .isOvertemp ∧
    decodeRequest c [0x70, 0x96] = .ok (.setDuty 150)

/-! Serving requests -/

/-- R58, R218: a step whose next input is a request that decodes, on the port that accepts it, with no operation in
progress if that port is MAIN, is `exec` of the operation, the request taken from the input. That the outside is held as a
list of inputs is the model's choice, log entry 3. -/
def Obligations.StepRunsDecodedRequest : Prop :=
  ∀ (s : State) (p : Port) (bytes : List Byte) (rest : List Input) (i : Instr),
    s.inputs = .request p bytes :: rest → decodeRequest s.cfg bytes = .ok i → i.port = p →
    (p = .main → s.sensor.running = none) →
    step s = exec i { s with inputs := rest }

/-- R217: a request that does not decode is answered FF, changes no register and makes no bus action. -/
def Obligations.UndecodedRequestIsAnsweredFF : Prop :=
  ∀ (s : State) (bytes : List Byte) (rest : List Input) (e : DecodeError), decodeRequest s.cfg bytes = .error e →
    (s.inputs = .request .tick bytes :: rest → step s = .next { s with inputs := rest, tickResponse := [0xFF] }) ∧
    (s.inputs = .request .main bytes :: rest → s.sensor.running = none →
      step s = .next { s with inputs := rest, mainResponse := [0xFF] })

/-- R222, R77: TICK accepts exactly DEBOUNCE_TICK and THERMAL_SAMPLE; a well-formed request on the other port is
answered FE and changes nothing. -/
def Obligations.RequestOnWrongPortIsRefused : Prop :=
  (∀ i : Instr, i.port = .tick ↔ (∃ ch b, i = .debounceTick ch b) ∨ ∃ v, i = .thermalSample v) ∧
  ∀ (s : State) (bytes : List Byte) (rest : List Input) (i : Instr), decodeRequest s.cfg bytes = .ok i →
    (s.inputs = .request .tick bytes :: rest → i.port = .main →
      step s = .next { s with inputs := rest, tickResponse := [0xFE] }) ∧
    (s.inputs = .request .main bytes :: rest → i.port = .tick → s.sensor.running = none →
      step s = .next { s with inputs := rest, mainResponse := [0xFE] })

/-- R58, R60: while an operation is in progress a MAIN request stays presented and the operation goes on. That an idle
block with nothing presented stays as it is, is the model's choice, log entry 3. -/
def Obligations.MainRequestWaitsForMeasure : Prop :=
  (∀ (s : State) (bytes : List Byte) (rest : List Input) (m : Measure),
    s.inputs = .request .main bytes :: rest → s.sensor.running = some m →
    step s = .next (advance s) ∧ (advance s).inputs = s.inputs) ∧
  ∀ s : State, s.inputs = [] → s.sensor.running = none → step s = .next s

/-- R240, R241: the reset event puts every register at its reset value from any state, ends an operation in progress,
and leaves the configuration (R242). What stays of the outside (the peer's settled answers, the inputs) is the model's
choice, log entry 10. -/
def Obligations.ResetEventRestoresResetState : Prop :=
  ∀ (s : State) (rest : List Input), s.inputs = .reset :: rest →
    step s = .next { State.resetWith s.cfg with
      bus := { dataDrv := true, sck := false, trace := [], peer := s.bus.peer, draws := s.bus.draws }
      inputs := rest }

/-- R43: every register after reset, in the deployment's configuration and in every other. -/
def Obligations.RegistersAfterReset : Prop :=
  State.reset = State.resetWith Config.deployed ∧
  ∀ c : Config,
    let s := State.resetWith c
    s.bus.dataDrv = true ∧ s.bus.sck = false ∧ s.sensor.phase = .idle ∧ s.sensor.kind = .temperature ∧
    s.sensor.poll = 0 ∧ s.channels.length = c.nb ∧
    (∀ k ∈ s.channels, k.filterShift = 0x00 ∧ k.settled = false ∧ k.seq = .idle ∧ k.holdTimer = 0x00 ∧
      k.eventOut = .none) ∧
    s.thermal.buffer.length = c.n ∧ (∀ v ∈ s.thermal.buffer, v = 0) ∧ s.thermal.sum = 0 ∧ s.thermal.pos = 0 ∧
    s.thermal.tripped = false ∧ s.duty = 0

/-- R37, R38, R39 with the widths of R26 and R32: they hold after reset, in the deployment's configuration and in every
other. -/
def Obligations.ResetStateIsInvariant : Prop :=
  State.Inv State.reset ∧ ∀ c : Config, State.Inv (State.resetWith c)

/-- R37, R38, R39 with the widths of R26 and R32: every step keeps them, from every state that has them. -/
def Obligations.StepKeepsInvariants : Prop :=
  ∀ s t : State, s.Inv → step s = .next t → t.Inv

/-- R215, R242: every step has a next state (there is no halted state), and no step changes the configuration. -/
def Obligations.EveryStepGoesOn : Prop :=
  ∀ s : State, ∃ t, step s = .next t ∧ t.cfg = s.cfg

/-- R41: an operation of the TICK port leaves what MAIN owns, and an operation of the MAIN port, and every micro-step,
what TICK owns. -/
def Obligations.PortsWriteOnlyWhatTheyOwn : Prop :=
  (∀ (i : Instr) (s t : State), exec i s = .next t →
    (i.port = .tick → SameMain s t) ∧ (i.port = .main → SameTick s t)) ∧
  ∀ s : State, SameTick s (advance s)

/-- R40: the two flag-like bits change only where a DEBOUNCE_TICK or a THERMAL_SAMPLE is served, or at a reset event. -/
def Obligations.FlagsChangeOnlyWhereStated : Prop :=
  ∀ s t : State, step s = .next t →
    ((∃ k : Nat, (t.channels[k]?).map Channel.settled ≠ (s.channels[k]?).map Channel.settled) →
      (∃ bytes rest ch b, s.inputs = .request .tick bytes :: rest ∧
        decodeRequest s.cfg bytes = .ok (.debounceTick ch b)) ∨ ∃ rest, s.inputs = .reset :: rest) ∧
    (t.thermal.tripped ≠ s.thermal.tripped →
      (∃ bytes rest v, s.inputs = .request .tick bytes :: rest ∧
        decodeRequest s.cfg bytes = .ok (.thermalSample v)) ∨ ∃ rest, s.inputs = .reset :: rest)

/-- R202, R204: the duty changes only where a SET_DUTY is served, or at a reset event. -/
def Obligations.DutyChangesOnlyInSetDuty : Prop :=
  ∀ s t : State, step s = .next t → t.duty ≠ s.duty →
    (∃ bytes rest v, s.inputs = .request .main bytes :: rest ∧ s.sensor.running = none ∧
      decodeRequest s.cfg bytes = .ok (.setDuty v)) ∨ ∃ rest, s.inputs = .reset :: rest

/-! CrcChecker -/

/-- R100, R101, R102: the request of CRC8 and its port; CRC8 completes in every state, its result is the forward
register reversed, and it changes nothing else. -/
def Obligations.Crc8Result : Prop :=
  (∀ data : List Byte, (Instr.crc8 data).port = .main ∧
    (data.length ≤ 255 → decode (0x10 :: BitVec.ofNat 8 data.length :: data) = .ok (.crc8 data))) ∧
  (∀ (c : Config) (i : Byte), c.crcTable.toList[i.toNat]? = some (tableRead c i)) ∧
  (∀ c : Config, crcFwd c [] = 0x00) ∧
  (∀ (c : Config) (bytes : List Byte) (b : Byte), crcFwd c (bytes ++ [b]) = tableRead c (crcFwd c bytes ^^^ b)) ∧
  (∀ (v : Byte) (i : Nat), i < 8 → (rev8 v).getLsbD i = v.getLsbD (7 - i)) ∧
  ∀ (data : List Byte) (s : State),
    exec (.crc8 data) s = .next { s with mainResponse := [0x00, rev8 (crcFwd s.cfg data)] }

/-- R103: the empty sequence gives 0 for every table, and a single byte reads the table out through the reversal. -/
def Obligations.Crc8OfShortSequences : Prop :=
  ∀ c : Config, crc8 c [] = 0x00 ∧ ∀ b : Byte, crc8 c [b] = rev8 (tableRead c b)

/-- R106: with a bijective table, two sequences of one length that differ in one byte have different check values. -/
def Obligations.Crc8SeesOneByteChange : Prop :=
  ∀ (c : Config) (front back : List Byte) (a b : Byte), c.TableBijective → a ≠ b →
    crc8 c (front ++ a :: back) ≠ crc8 c (front ++ b :: back)

/-! BitbangProtocol -/

/-- R113: the request of BUS_START and its port; it makes its 14 actions and leaves the lines at rest, from every
state. -/
def Obligations.BusStartEffect : Prop :=
  decode [0x21] = .ok .busStart ∧ Instr.busStart.port = .main ∧
  ∀ s : State, exec .busStart s = .next { s with
    bus := { s.bus with dataDrv := true, sck := false, trace := s.bus.trace ++ startTrace s.cfg }
    mainResponse := [0x00] }

/-- R114: the request of BUS_RESET and its port; it makes its 51 actions, leaves the lines at rest and sets the phase to
Idle, from every state. -/
def Obligations.BusResetEffect : Prop :=
  decode [0x20] = .ok .busReset ∧ Instr.busReset.port = .main ∧
  ∀ s : State, exec .busReset s = .next { s with
    bus := { s.bus with dataDrv := true, sck := false, trace := s.bus.trace ++ resetTrace s.cfg }
    sensor := { s.sensor with phase := .idle }
    mainResponse := [0x00] }

/-- R116, R80, R117: the request of BUS_WRITE_BYTE and its port; it makes its 46 actions; its result is the bit the
peer answered in the ninth pulse, and its status is OK whatever that bit is. -/
def Obligations.BusWriteByteEffect : Prop :=
  ∀ (value : Byte) (s : State), decode [0x22, value] = .ok (.busWriteByte value) ∧
    (Instr.busWriteByte value).port = .main ∧ ∃ nack : Bool, PeerAnswers s.bus [nack] ∧
    exec (.busWriteByte value) s = .next { s with
      bus := {
        dataDrv := true
        sck := false
        trace := s.bus.trace ++ writeTrace s.cfg value nack
        peer := s.bus.peer.drop 1
        draws := s.bus.draws + 1 }
      mainResponse := [0x00, if nack then 1 else 0] }

/-- R118: the request of BUS_READ_BYTE and its port; it makes its 49 actions for both values of the operand; its
result is the eight bits the peer answered, bit 7 first. -/
def Obligations.BusReadByteEffect : Prop :=
  ∀ (sendAck : Bool) (s : State), decode [0x23, if sendAck then 1 else 0] = .ok (.busReadByte sendAck) ∧
    (Instr.busReadByte sendAck).port = .main ∧ ∃ value : Byte,
    PeerAnswers s.bus [value.getLsbD 7, value.getLsbD 6, value.getLsbD 5, value.getLsbD 4, value.getLsbD 3,
      value.getLsbD 2, value.getLsbD 1, value.getLsbD 0] ∧
    exec (.busReadByte sendAck) s = .next { s with
      bus := {
        dataDrv := true
        sck := false
        trace := s.bus.trace ++ readTrace s.cfg value sendAck
        peer := s.bus.peer.drop 8
        draws := s.bus.draws + 8 }
      mainResponse := [0x00, value] }

/-- R39, R120: from every state, each of the four engine operations ends with the lines at rest after its fixed number
of actions, and writes nothing but the bus, its response and, BUS_RESET, the phase. -/
def Obligations.EngineOperationsRestTheBus : Prop :=
  ∀ (s : State) (i : Instr) (actions : Nat),
    ((i = .busStart ∧ actions = 14) ∨ (i = .busReset ∧ actions = 51) ∨ ((∃ v, i = .busWriteByte v) ∧ actions = 46) ∨
      ((∃ a, i = .busReadByte a) ∧ actions = 49)) →
    ∃ t, exec i s = .next t ∧ t.bus.dataDrv = true ∧ t.bus.sck = false ∧
      t.bus.trace.length = s.bus.trace.length + actions ∧
      t.sensor = (if i = .busReset then { s.sensor with phase := .idle } else s.sensor) ∧
      t.duty = s.duty ∧ t.inputs = s.inputs ∧ SameTick s t

/-- R64: the data line is wired-AND: a sample taken while the block drives it low returns 0, and with the line
released it returns the peer's drive. -/
def Obligations.SampleReadsWiredAnd : Prop :=
  ∀ b : Bus,
    (b.dataDrv = false → (b.run [.sample]).2 = [false]) ∧
    (∀ x rest, b.dataDrv = true → b.peer = x :: rest → (b.run [.sample]).2 = [x])

/-! SensorDriver -/

/-- R134: the request of START_MEASUREMENT and its port, and its effect in every phase. -/
def Obligations.StartMeasurementEffect : Prop :=
  ∀ (kind : Kind) (s : State),
    decode [0x30, match kind with | .temperature => 0 | .humidity => 1] = .ok (.startMeasurement kind) ∧
    (Instr.startMeasurement kind).port = .main ∧
    (s.sensor.phase = .idle ∨ s.sensor.phase = .done → ∃ nack : Bool, PeerAnswers s.bus [nack] ∧
      exec (.startMeasurement kind) s = .next { s with
        bus := {
          dataDrv := true
          sck := false
          trace := s.bus.trace ++ (startTrace s.cfg ++
            writeTrace s.cfg (match kind with | .temperature => 0x03 | .humidity => s.cfg.cmdHumi) nack)
          peer := s.bus.peer.drop 1
          draws := s.bus.draws + 1 }
        sensor := { s.sensor with phase := if nack then .idle else .started, kind := kind }
        mainResponse := [if nack then 0x01 else 0x00] }) ∧
    (s.sensor.phase ≠ .idle → s.sensor.phase ≠ .done →
      exec (.startMeasurement kind) s = .next { s with mainResponse := [0xFE] })

/-- R136, R137: the request of POLL_DONE and its port, and its effect in every phase: one sample, ready when it is low.
R136 speaks of a sample with the line released; that a sample taken while the block drives the line low uses up an
answer of the peer too is the model's choice, log entry 13. -/
def Obligations.PollDoneEffect : Prop :=
  decode [0x31] = .ok .pollDone ∧ Instr.pollDone.port = .main ∧
  ∀ s : State,
    (s.sensor.phase = .started ∨ s.sensor.phase = .polling → ∃ x : Bool, PeerAnswers s.bus [x] ∧
      let b := s.bus.dataDrv && x
      exec .pollDone s = .next { s with
        bus := { s.bus with
          trace := s.bus.trace ++ [.s b]
          peer := s.bus.peer.drop 1
          draws := s.bus.draws + 1 }
        sensor := { s.sensor with phase := if b then .polling else .read }
        mainResponse := [0x00, if b then 0 else 1] }) ∧
    (s.sensor.phase ≠ .started → s.sensor.phase ≠ .polling →
      exec .pollDone s = .next { s with mainResponse := [0xFE] })

/-- R138: the request of READ_RESULT and its port, and its effect in every phase: three bytes, acknowledged,
acknowledged, not acknowledged. -/
def Obligations.ReadResultEffect : Prop :=
  decode [0x32] = .ok .readResult ∧ Instr.readResult.port = .main ∧
  ∀ s : State,
    (s.sensor.phase = .read → ∃ hi lo cs : Byte, PeerAnswers s.bus (resultBits hi lo cs) ∧
      exec .readResult s = .next { s with
        bus := {
          dataDrv := true
          sck := false
          trace := s.bus.trace ++ (readTrace s.cfg hi true ++ readTrace s.cfg lo true ++ readTrace s.cfg cs false)
          peer := s.bus.peer.drop 24
          draws := s.bus.draws + 24 }
        sensor := { s.sensor with phase := .done }
        mainResponse := [0x00, hi, lo, cs] }) ∧
    (s.sensor.phase ≠ .read → exec .readResult s = .next { s with mainResponse := [0xFE] })

/-- R139, R57: the request of VERIFY_CRC and its port; in every phase it answers OK exactly when the check value of
command, high, low is the checksum; it changes nothing else. For temperature, `01 90` and checksum 00 it answers
CHECKSUM. R139 says that for tables that satisfy R104 (b); that every configuration has such a table is the model's
choice, log entry 18. -/
def Obligations.VerifyCrcEffect : Prop :=
  ∀ (kind : Kind) (hi lo cs : Byte) (s : State),
    decode [0x33, match kind with | .temperature => 0 | .humidity => 1, hi, lo, cs] = .ok (.verifyCrc kind hi lo cs) ∧
    (Instr.verifyCrc kind hi lo cs).port = .main ∧
    exec (.verifyCrc kind hi lo cs) s = .next { s with
      mainResponse :=
        [if rev8 (crcFwd s.cfg [match kind with | .temperature => 0x03 | .humidity => s.cfg.cmdHumi, hi, lo]) = cs
          then 0x00 else 0x03] } ∧
    exec (.verifyCrc .temperature 0x01 0x90 0x00) s = .next { s with mainResponse := [0x03] }

/-- R132: MEASURE and MEASURE_AND_CHECK in `Started`, `Polling` and `Read` are refused; in `Idle` and `Done` they are
accepted at once, write `sd_kind`, and are in progress from then on. How the progress is held is the model's choice,
log entry 8, and so is that the MAIN response is emptied, log entry 14. -/
def Obligations.MeasureIsAcceptedOrRefused : Prop :=
  ∀ (kind : Kind) (s : State),
    (s.sensor.phase = .idle ∨ s.sensor.phase = .done →
      exec (.measure kind) s = .next { s with
        sensor := { s.sensor with kind := kind, running := some ⟨false, .command, commandProgram s.cfg kind, []⟩ }
        mainResponse := [] } ∧
      exec (.measureAndCheck kind) s = .next { s with
        sensor := { s.sensor with kind := kind, running := some ⟨true, .command, commandProgram s.cfg kind, []⟩ }
        mainResponse := [] }) ∧
    (s.sensor.phase ≠ .idle → s.sensor.phase ≠ .done →
      exec (.measure kind) s = .next { s with mainResponse := [0xFE] } ∧
      exec (.measureAndCheck kind) s = .next { s with mainResponse := [0xFE] })

/-- R141: a micro-step is exactly one bus action, the next one of the operation in progress. That each single bus
action is a step is the model's choice, log entry 8. -/
def Obligations.MicroStepIsOneBusAction : Prop :=
  ∀ (s : State) (m : Measure) (op : BusOp) (rest : List BusOp),
    s.sensor.running = some m → m.todo = op :: rest →
    (advance s).bus = (s.bus.run [op]).1 ∧ (advance s).bus.trace.length = s.bus.trace.length + 1 ∧
    (advance s).duty = s.duty ∧ (advance s).inputs = s.inputs

/-- R140, R142, R86: with nothing served in between, the micro-steps of MEASURE and of MEASURE_AND_CHECK come, within
the bound of R144 and for every peer, to the very state that the rules' pseudocode gives as one piece of work. How
the progress is held in between is the model's choice, log entry 8. -/
def Obligations.MeasureMicroStepsRefinePseudocode : Prop :=
  ∀ (kind : Kind) (s : State), s.inputs = [] →
    (∃ s0 n, exec (.measure kind) s = .next s0 ∧ n ≤ measureBound s.cfg ∧
      Sys2Proof.core.run n s0 = .next (measureAtOnce false kind s)) ∧
    (∃ s0 n, exec (.measureAndCheck kind) s = .next s0 ∧ n ≤ measureBound s.cfg ∧
      Sys2Proof.core.run n s0 = .next (measureAtOnce true kind s))

/-- R144: an operation in progress ends, with a response, within its bound of micro-steps, whatever the peer answers. A
micro-step is a step by the model's choice, log entry 8. -/
def Obligations.MeasureAlwaysEnds : Prop :=
  ∀ s : State, s.Inv → s.inputs = [] → s.sensor.running ≠ none →
    ∃ n t, n ≤ measureBound s.cfg ∧ Sys2Proof.core.run n s = .next t ∧ t.sensor.running = none ∧ t.mainResponse ≠ []

/-- R140, R142: against a peer that acknowledges, is ready after some failed checks fewer than POLL_MAX, and sends
three bytes, MEASURE returns the value and MEASURE_AND_CHECK returns it exactly when the checksum matches; the number
of micro-steps, the trace and the whole state are given. The number of steps rests on the model's choice of log entry
8. -/
def Obligations.MeasureAgainstReadyPeer : Prop :=
  ∀ (kind : Kind) (s : State) (fails : Nat) (hi lo cs : Byte) (later : List Bool),
    s.sensor.phase = .idle ∨ s.sensor.phase = .done → s.inputs = [] → fails < s.cfg.pollMax →
    s.bus.peer = [false] ++ List.replicate fails true ++ [false] ++ resultBits hi lo cs ++ later →
    let command : Byte := match kind with | .temperature => 0x03 | .humidity => s.cfg.cmdHumi
    let after : List Byte → State := fun response => { s with
      bus := {
        dataDrv := true
        sck := false
        trace := s.bus.trace ++ (startTrace s.cfg ++ writeTrace s.cfg command false ++
          failedChecksTrace s.cfg fails ++ [.s false] ++
          readTrace s.cfg hi true ++ readTrace s.cfg lo true ++ readTrace s.cfg cs false)
        peer := later
        draws := s.bus.draws + (fails + 26) }
      sensor := { phase := .done, kind := kind, poll := fails + 1, running := none }
      mainResponse := response }
    (∃ s0, exec (.measure kind) s = .next s0 ∧
      Sys2Proof.core.run (60 + 2 * fails + 1 + 147) s0 = .next (after [0x00, hi, lo])) ∧
    (∃ s0, exec (.measureAndCheck kind) s = .next s0 ∧
      Sys2Proof.core.run (60 + 2 * fails + 1 + 147) s0 =
        .next (after (if rev8 (crcFwd s.cfg [command, hi, lo]) = cs then [0x00, hi, lo] else [0x03])))

/-- R211, R140: without an acknowledge both operations end in BUSNACK after 60 actions, with no poll made. The number
of steps rests on the model's choice of log entry 8, and that `sd_poll` keeps its value on log entry 15. -/
def Obligations.MeasureWithoutAcknowledge : Prop :=
  ∀ (kind : Kind) (s : State) (later : List Bool),
    s.sensor.phase = .idle ∨ s.sensor.phase = .done → s.inputs = [] → s.bus.peer = true :: later →
    ∀ i : Instr, i = .measure kind ∨ i = .measureAndCheck kind →
    ∃ s0, exec i s = .next s0 ∧ Sys2Proof.core.run 60 s0 = .next { s with
      bus := {
        dataDrv := true
        sck := false
        trace := s.bus.trace ++ (startTrace s.cfg ++
          writeTrace s.cfg (match kind with | .temperature => 0x03 | .humidity => s.cfg.cmdHumi) true)
        peer := later
        draws := s.bus.draws + 1 }
      sensor := { s.sensor with phase := .idle, kind := kind, running := none }
      mainResponse := [0x01] }

/-- R212, R145: a peer that acknowledges and is not ready at POLL_MAX checks makes both operations end in TIMEOUT;
after the command byte the block made no clock edge and drove nothing. The number of steps rests on the model's choice
of log entry 8. -/
def Obligations.MeasureTimesOut : Prop :=
  ∀ (kind : Kind) (s : State) (later : List Bool),
    s.sensor.phase = .idle ∨ s.sensor.phase = .done → s.inputs = [] →
    s.bus.peer = [false] ++ List.replicate s.cfg.pollMax true ++ later →
    ∀ i : Instr, i = .measure kind ∨ i = .measureAndCheck kind →
    ∃ s0, exec i s = .next s0 ∧ Sys2Proof.core.run (60 + 2 * s.cfg.pollMax) s0 = .next { s with
      bus := {
        dataDrv := true
        sck := false
        trace := s.bus.trace ++ (startTrace s.cfg ++
          writeTrace s.cfg (match kind with | .temperature => 0x03 | .humidity => s.cfg.cmdHumi) false ++
          failedChecksTrace s.cfg s.cfg.pollMax)
        peer := later
        draws := s.bus.draws + (s.cfg.pollMax + 1) }
      sensor := { phase := .idle, kind := kind, poll := s.cfg.pollMax, running := none }
      mainResponse := [0x02] }

/-- R62: serving a TICK request and taking a micro-step can be exchanged. -/
def Obligations.TickCommutesWithMicroStep : Prop :=
  ∀ (s : State) (bytes : List Byte), ∃ t, serve .tick bytes s = .next t ∧
    serve .tick bytes (advance s) = .next (advance t)

/-- R62, R141: whatever TICK requests are served between micro-steps, and wherever they fall, the bus, SensorDriver and
the MAIN response come out as with none, and the channels, the window and the TICK response as with no operation in
progress. How placements are presented is the model's choice, log entry 3. -/
def Obligations.InterleavingIsInvisible : Prop :=
  ∀ (s : State) (placed later : List Input),
    s.inputs = placed ++ later → (∀ x ∈ placed, x.betweenSteps = true) →
    ∃ t v, Sys2Proof.core.run placed.length s = .next t ∧ t.inputs = later ∧
      SameMain (advance^[placed.count .proceed] s) t ∧
      Sys2Proof.core.run (placed.filter Input.isTick).length
        { s with inputs := placed.filter Input.isTick, sensor := { s.sensor with running := none } } = .next v ∧
      SameTick v t

/-! UnitConverter -/

/-- R7, R154: truncation is toward zero, from both sides, and is never further than one unit. -/
def Obligations.TruncationIsTowardZero : Prop :=
  ∀ q : Rat,
    (0 ≤ q → (trunc q : Rat) ≤ q ∧ q < trunc q + 1) ∧
    (q ≤ 0 → q ≤ trunc q ∧ (trunc q : Rat) - 1 < q)

/-- R156: in every configuration the exact temperature fits sixteen signed bits for every raw value, not only for the
two that the model's check looks at (log entry 4). -/
def Obligations.ExactTemperatureFits : Prop :=
  ∀ (c : Config) (rawTemp : Word),
    -32768 ≤ temperatureExact c rawTemp.toNat ∧ temperatureExact c rawTemp.toNat ≤ 32767

/-- R150, R151, with `NUM_EXACT`: CONVERT completes in every state, its two results are those of the formulas, and it
changes nothing else. -/
def Obligations.ConvertInExactArithmetic : Prop :=
  ∀ (rawTemp rawHumidity : Word) (s : State), s.cfg.num = .exact →
    ∃ temperature humidity : Word,
      exec (.convert rawTemp rawHumidity) s = .next { s with
        mainResponse := [0x00, hiByte temperature, loByte temperature, hiByte humidity, loByte humidity] } ∧
      (let T : Rat := rawTemp.toNat
       let H : Rat := rawHumidity.toNat
       let dRH := s.cfg.c1 + s.cfg.c2 * H + s.cfg.c3 * H * H
       let dT := s.cfg.d1 + s.cfg.d2 * T
       let dRHc := (dT - 25) * (s.cfg.t1 - s.cfg.t2 * H) + dRH
       let dRHcl := max 0 (min 100 dRHc)
       temperature.toInt = trunc (10 * dT) ∧ humidity.toInt = trunc (10 * dRHcl))

/-- R150, R153: in every arithmetic CONVERT completes in every state, changes nothing but its response, and its
humidity is in 0 to 1000. In an arithmetic that is none of the two named ones the results are free values, log entry 5. -/
def Obligations.ConvertKeepsHumidityInRange : Prop :=
  ∀ (rawTemp rawHumidity : Word) (s : State),
    exec (.convert rawTemp rawHumidity) s = .next { s with
      mainResponse := [0x00, hiByte (convertTemperature s.cfg rawTemp), loByte (convertTemperature s.cfg rawTemp),
        hiByte (convertHumidity s.cfg rawTemp rawHumidity), loByte (convertHumidity s.cfg rawTemp rawHumidity)] } ∧
    0 ≤ (convertHumidity s.cfg rawTemp rawHumidity).toInt ∧ (convertHumidity s.cfg rawTemp rawHumidity).toInt ≤ 1000

/-- R152, `NUM_F32`: every raw value is a binary32 value; rounding gives the nearest one, of two equally near the one
with even significand; and where nothing overflows the two results of CONVERT are those of the formulas in the order of
R152, every constant and every result rounded. Ties to even for a constant are the model's choice, log entry 17. -/
def Obligations.ConvertInSinglePrecision : Prop :=
  (∀ n : Nat, n ≤ 65535 → F32.round (n : Rat) = .fin n) ∧
  (∀ q v : Rat, F32.round q = .fin v → ∃ m e : Int, IsBinary32 m e v ∧
    ∀ (m' e' : Int) (w : Rat), IsBinary32 m' e' w → |q - v| ≤ |q - w| ∧ (w ≠ v → |q - v| = |q - w| → Even m)) ∧
  ∀ (rawTemp rawHumidity : Word) (s : State), s.cfg.num = .binary32 →
    ∃ temperature humidity : Word,
      exec (.convert rawTemp rawHumidity) s = .next { s with
        mainResponse := [0x00, hiByte temperature, loByte temperature, hiByte humidity, loByte humidity] } ∧
      (∀ dT x : Rat, degreesRounded s.cfg.toParameters rawTemp.toNat = some dT → rounded (dT * 10) = some x →
        -32768 ≤ trunc x → trunc x ≤ 32767 → temperature.toInt = trunc x) ∧
      (∀ dRHc x : Rat, humidityRounded s.cfg.toParameters rawTemp.toNat rawHumidity.toNat = some dRHc →
        rounded (max 0 (min 100 dRHc) * 10) = some x → humidity.toInt = trunc x)

/-- R157, R158, R159: the request of TO_PACKED_BCD and its port; it completes in every state and changes nothing else;
in range the word is sign and digits, out of range it is the boundary word with the status SATURATED. -/
def Obligations.ToPackedBcdEffect : Prop :=
  (∀ hi lo : Byte, decode [0x41, hi, lo] = .ok (.toPackedBcd (hi ++ lo)) ∧
    (Instr.toPackedBcd (hi ++ lo)).port = .main) ∧
  ∀ (value : Word) (s : State),
    (7999 < value.toInt → exec (.toPackedBcd value) s = .next { s with mainResponse := [0x04, 0x79, 0x99] }) ∧
    (value.toInt < -7999 → exec (.toPackedBcd value) s = .next { s with mainResponse := [0x04, 0xF9, 0x99] }) ∧
    (-7999 ≤ value.toInt → value.toInt ≤ 7999 → ∃ w : Word,
      exec (.toPackedBcd value) s = .next { s with mainResponse := [0x00, hiByte w, loByte w] } ∧
      w.getLsbD 15 = decide (value.toInt < 0) ∧
      (w.extractLsb' 12 3).toNat = value.toInt.natAbs / 1000 ∧
      (w.extractLsb' 8 4).toNat = value.toInt.natAbs / 100 % 10 ∧
      (w.extractLsb' 4 4).toNat = value.toInt.natAbs / 10 % 10 ∧
      (w.extractLsb' 0 4).toNat = value.toInt.natAbs % 10)

/-- R160: in range, decoding the packed word gives the value back; and the word for minus zero is never produced
(R158). -/
def Obligations.PackedBcdRoundTrip : Prop :=
  ∀ value : Word,
    (-7999 ≤ value.toInt → value.toInt ≤ 7999 → (packedBcd value).1 = .ok ∧ bcdValue (packedBcd value).2 = value.toInt) ∧
    (packedBcd value).2 ≠ 0x8000

/-! DebounceEngine -/

/-- R170, R171, R172, R179, R183: the request of DEBOUNCE_TICK and its port; on a channel that exists it completes,
shifts the sample in, settles the level, latches and returns the event of step 3, and changes no other channel and
nothing else. -/
def Obligations.DebounceTickEffect : Prop :=
  (∀ (ch : Byte) (sample : Bool),
    decode [0x50, ch, if sample then 1 else 0] = .ok (.debounceTick ch sample) ∧
    (Instr.debounceTick ch sample).port = .tick) ∧
  ∀ (ch : Byte) (sample : Bool) (s : State) (k : Channel), s.channels[ch.toNat]? = some k →
    let fs : Byte := (k.filterShift <<< 1) ||| (if sample then 1 else 0)
    let st : Bool :=
      if fs.getLsbD 2 && fs.getLsbD 1 && fs.getLsbD 0 then true
      else if !fs.getLsbD 2 && !fs.getLsbD 1 && !fs.getLsbD 0 then false
      else k.settled
    let r := sequenceNext s.cfg st k.seq k.holdTimer
    let k' : Channel := ⟨fs, st, r.1, r.2.1, r.2.2⟩
    exec (.debounceTick ch sample) s = .next { s with
      channels := s.channels.set ch.toNat k'
      tickResponse := [0x00, match r.2.2 with | .none => 0 | .pressed => 1 | .hold => 2] } ∧
    (s.channels.set ch.toNat k')[ch.toNat]? = some k' ∧
    ∀ other : Nat, other ≠ ch.toNat → (s.channels.set ch.toNat k')[other]? = s.channels[other]?

/-- R174 to R177: step 3 in each of the four sequence states, for both levels. -/
def Obligations.SequenceTransitions : Prop :=
  ∀ (c : Config) (ht : Byte),
    let t : Byte := BitVec.ofNat 8 ((ht.toNat + 1) % 256)
    sequenceNext c true .idle ht = (.armedShortOrHold, 0, .none) ∧
    sequenceNext c false .idle ht = (.idle, ht, .none) ∧
    sequenceNext c false .armedShortOrHold ht = (.idle, t, .pressed) ∧
    sequenceNext c true .armedShortOrHold ht =
      (if t.toNat = c.shortPressLimit then (.hold1, 0, .hold) else (.armedShortOrHold, t, .none)) ∧
    sequenceNext c false .hold1 ht = (.idle, ht, .none) ∧
    sequenceNext c true .hold1 ht =
      (if t.toNat = c.longPressFirstPeriod then (.holdRepeat, 0, .hold) else (.hold1, t, .none)) ∧
    sequenceNext c false .holdRepeat ht = (.idle, ht, .none) ∧
    sequenceNext c true .holdRepeat ht =
      (if t.toNat = c.longPressRepeatPeriod then (.holdRepeat, 0, .hold) else (.holdRepeat, t, .none))

/-- R182: the request of READ_EVENT and its port; on a channel that exists it returns the latch and writes nothing. -/
def Obligations.ReadEventEffect : Prop :=
  (∀ ch : Byte, decode [0x51, ch] = .ok (.readEvent ch) ∧ (Instr.readEvent ch).port = .main) ∧
  ∀ (ch : Byte) (s : State) (k : Channel), s.channels[ch.toNat]? = some k →
    exec (.readEvent ch) s = .next { s with
      mainResponse := [0x00, match k.eventOut with | .none => 0 | .pressed => 1 | .hold => 2] }

/-- R184: a channel held down from an idle, released state: the level rises and the channel is armed on tick 3, and
the event of every tick from the first on. The `Hold` events fall on ticks `3 + S`, `3 + S + F` and `3 + S + F + k*R`,
and every other tick emits nothing. -/
def Obligations.HeldButtonEvents : Prop :=
  ∀ (c : Config) (k : Channel), k.seq = .idle → k.settled = false → k.filterShift.extractLsb' 0 3 = 0 →
    (let armed := k.ticks c (List.replicate 3 true)
     armed.settled = true ∧ armed.seq = .armedShortOrHold ∧ armed.holdTimer = 0) ∧
    ∀ tick : Nat, 1 ≤ tick →
      let isHold : Prop := tick = 3 + c.shortPressLimit ∨ tick = 3 + c.shortPressLimit + c.longPressFirstPeriod ∨
        ∃ n, 1 ≤ n ∧ tick = 3 + c.shortPressLimit + c.longPressFirstPeriod + n * c.longPressRepeatPeriod
      (isHold → (k.ticks c (List.replicate tick true)).eventOut = .hold) ∧
      (¬isHold → (k.ticks c (List.replicate tick true)).eventOut = .none)

/-- R185 (a): from reset, three ticks high and three low give no event but one `Pressed` on tick 6, and end in `Idle`,
when `SHORT_PRESS_LIMIT` is at least 3. -/
def Obligations.ShortPressIsOnePressed : Prop :=
  ∀ c : Config, 3 ≤ c.shortPressLimit →
    (∀ n, n < 6 → ((Channel.reset).ticks c ([true, true, true, false, false, false].take n)).eventOut = .none) ∧
    let k := (Channel.reset).ticks c [true, true, true, false, false, false]
    k.eventOut = .pressed ∧ k.seq = .idle ∧ k.holdTimer = 3

/-! ThermalSupervisor -/

/-- R190, R191, R192: the request of THERMAL_SAMPLE and its port; from every state whose `pos` is inside the window
and whose sum covers the outgoing sample (R191: "never negative", by R37) it completes: the ring takes the sample at
`pos`, the sum follows, `pos` advances and wraps, the gate acts on the new sum, and nothing else changes. From a state
with the invariants a sample inside its domain leaves the sum that of the ring and inside its width. -/
def Obligations.ThermalSampleEffect : Prop :=
  (∀ hi lo : Byte, decode [0x60, hi, lo] = .ok (.thermalSample (hi ++ lo)) ∧
    (Instr.thermalSample (hi ++ lo)).port = .tick) ∧
  ∀ (newSample : Word) (s : State) (outgoing : Nat), s.thermal.buffer[s.thermal.pos]? = some outgoing →
    outgoing ≤ s.thermal.sum →
    ∃ sum : Nat, (sum : Int) = s.thermal.sum - outgoing + newSample.toNat ∧
      exec (.thermalSample newSample) s = .next { s with
        thermal := {
          buffer := s.thermal.buffer.set s.thermal.pos newSample.toNat
          sum := sum
          pos := (s.thermal.pos + 1) % s.cfg.n
          tripped :=
            if s.thermal.tripped then !decide (sum < s.cfg.lowerThreshold) else decide (sum > s.cfg.upperThreshold) }
        tickResponse := [0x00] } ∧
      (s.Inv → newSample.toNat < 2 ^ s.cfg.sampleBits →
        sum = (s.thermal.buffer.set s.thermal.pos newSample.toNat).sum ∧
        sum ≤ s.cfg.n * (2 ^ s.cfg.sampleBits - 1) ∧ sum < 2 ^ (s.cfg.sampleBits + Nat.clog 2 s.cfg.n))

/-- R193: in the band the trip flag keeps its value; above it is set, below it is clear (R192). -/
def Obligations.TripFlagHysteresis : Prop :=
  ∀ (c : Config) (sum : Nat) (t : Bool),
    (c.lowerThreshold ≤ sum → sum ≤ c.upperThreshold → trippedNext c sum t = t) ∧
    (c.upperThreshold < sum → trippedNext c sum t = true) ∧
    (sum < c.lowerThreshold → trippedNext c sum t = false)

/-- R196: after N THERMAL_SAMPLE requests with one value, from every state with the invariants, the window is N copies
of it, the sum is N times it, and the flag is set above the upper threshold and clear below the lower one. -/
def Obligations.ConstantSamplesFillTheWindow : Prop :=
  ∀ (s : State) (v : Word), s.Inv → v.toNat < 2 ^ s.cfg.sampleBits →
    s.inputs = List.replicate s.cfg.n (.request .tick (encode (.thermalSample v))) →
    ∃ t, Sys2Proof.core.run s.cfg.n s = .next t ∧ t.thermal.buffer = List.replicate s.cfg.n v.toNat ∧
      t.thermal.sum = s.cfg.n * v.toNat ∧
      (s.cfg.n * v.toNat > s.cfg.upperThreshold → t.thermal.tripped = true) ∧
      (s.cfg.n * v.toNat < s.cfg.lowerThreshold → t.thermal.tripped = false)

/-- R197: warm-up: from reset, with one sample value, the flag is clear after `k` calls as long as `k * v` does not
exceed the upper threshold. -/
def Obligations.WarmUpDelaysTheTrip : Prop :=
  ∀ (c : Config) (v k : Nat), k ≤ c.n → k * v ≤ c.upperThreshold →
    ((Thermal.sample c v)^[k] (Thermal.reset c)).tripped = false ∧
    ((Thermal.sample c v)^[k] (Thermal.reset c)).sum = k * v

/-- R33, R6: in every state with the invariants the running sum fits `SUM_BITS`, so it never overflows. -/
def Obligations.SumFitsItsWidth : Prop :=
  ∀ s : State, s.Inv →
    s.thermal.sum ≤ s.cfg.n * (2 ^ s.cfg.sampleBits - 1) ∧
    s.thermal.sum < 2 ^ (s.cfg.sampleBits + Nat.clog 2 s.cfg.n)

/-- R195: the request of IS_OVERTEMP and its port; it returns the flag and writes nothing. No operation reads the
ring, the sum or the position out: whatever they are, every operation gives the same responses. -/
def Obligations.IsOvertempEffect : Prop :=
  decode [0x61] = .ok .isOvertemp ∧ Instr.isOvertemp.port = .main ∧
  (∀ s : State, exec .isOvertemp s = .next { s with mainResponse := [0x00, if s.thermal.tripped then 1 else 0] }) ∧
  ∀ (i : Instr) (s : State) (buffer : List Nat) (sum pos : Nat),
    ∃ t u, exec i s = .next t ∧
      exec i { s with thermal := { s.thermal with buffer := buffer, sum := sum, pos := pos } } = .next u ∧
      u.mainResponse = t.mainResponse ∧ u.tickResponse = t.tickResponse

/-! ActuatorGate -/

/-- R200, R201: the request of SET_DUTY and its port; in every state it writes 0 while the trip flag is set, else the
value clamped into `[0, PERIOD)`; it changes nothing else. -/
def Obligations.SetDutyEffect : Prop :=
  ∀ (value : Byte) (s : State), decode [0x70, value] = .ok (.setDuty value) ∧
    (Instr.setDuty value).port = .main ∧ ∃ d : Byte,
    exec (.setDuty value) s = .next { s with duty := d, mainResponse := [0x00] } ∧
    d.toNat = (if s.thermal.tripped then 0 else if value.toNat < s.cfg.period then value.toNat else s.cfg.period - 1) ∧
    d.toNat < s.cfg.period

/-- R203: the request of GET_DUTY and its port; it returns the applied duty and writes nothing. -/
def Obligations.GetDutyEffect : Prop :=
  decode [0x71] = .ok .getDuty ∧ Instr.getDuty.port = .main ∧
  ∀ s : State, exec .getDuty s = .next { s with mainResponse := [0x00, s.duty] }
end

