-- ==== Sys2Proof/Laws/State.lean ====
section
/-!
SUPPORT. One lemma for each field of the state under each update of it (Machine/Ops.lean), so that no proof unfolds a record
update.
-/

namespace Sys2Proof.Machine

@[simp] theorem State.withBus_cfg (s : State) (b : Bus) : (s.withBus b).cfg = s.cfg := rfl
@[simp] theorem State.withBus_bus (s : State) (b : Bus) : (s.withBus b).bus = b := rfl
@[simp] theorem State.withBus_sensor (s : State) (b : Bus) : (s.withBus b).sensor = s.sensor := rfl
@[simp] theorem State.withBus_channels (s : State) (b : Bus) : (s.withBus b).channels = s.channels := rfl
@[simp] theorem State.withBus_thermal (s : State) (b : Bus) : (s.withBus b).thermal = s.thermal := rfl
@[simp] theorem State.withBus_duty (s : State) (b : Bus) : (s.withBus b).duty = s.duty := rfl
@[simp] theorem State.withBus_inputs (s : State) (b : Bus) : (s.withBus b).inputs = s.inputs := rfl
@[simp] theorem State.withBus_tickResponse (s : State) (b : Bus) : (s.withBus b).tickResponse = s.tickResponse := rfl
@[simp] theorem State.withBus_mainResponse (s : State) (b : Bus) : (s.withBus b).mainResponse = s.mainResponse := rfl

@[simp] theorem State.withSensor_cfg (s : State) (d : Sensor) : (s.withSensor d).cfg = s.cfg := rfl
@[simp] theorem State.withSensor_bus (s : State) (d : Sensor) : (s.withSensor d).bus = s.bus := rfl
@[simp] theorem State.withSensor_sensor (s : State) (d : Sensor) : (s.withSensor d).sensor = d := rfl
@[simp] theorem State.withSensor_channels (s : State) (d : Sensor) : (s.withSensor d).channels = s.channels := rfl
@[simp] theorem State.withSensor_thermal (s : State) (d : Sensor) : (s.withSensor d).thermal = s.thermal := rfl
@[simp] theorem State.withSensor_duty (s : State) (d : Sensor) : (s.withSensor d).duty = s.duty := rfl
@[simp] theorem State.withSensor_inputs (s : State) (d : Sensor) : (s.withSensor d).inputs = s.inputs := rfl
@[simp] theorem State.withSensor_tickResponse (s : State) (d : Sensor) : (s.withSensor d).tickResponse = s.tickResponse := rfl
@[simp] theorem State.withSensor_mainResponse (s : State) (d : Sensor) : (s.withSensor d).mainResponse = s.mainResponse := rfl

@[simp] theorem State.withPhase_cfg (s : State) (p : Phase) : (s.withPhase p).cfg = s.cfg := rfl
@[simp] theorem State.withPhase_bus (s : State) (p : Phase) : (s.withPhase p).bus = s.bus := rfl
@[simp] theorem State.withPhase_sensor (s : State) (p : Phase) : (s.withPhase p).sensor = { s.sensor with phase := p } := rfl
@[simp] theorem State.withPhase_channels (s : State) (p : Phase) : (s.withPhase p).channels = s.channels := rfl
@[simp] theorem State.withPhase_thermal (s : State) (p : Phase) : (s.withPhase p).thermal = s.thermal := rfl
@[simp] theorem State.withPhase_duty (s : State) (p : Phase) : (s.withPhase p).duty = s.duty := rfl
@[simp] theorem State.withPhase_inputs (s : State) (p : Phase) : (s.withPhase p).inputs = s.inputs := rfl
@[simp] theorem State.withPhase_tickResponse (s : State) (p : Phase) : (s.withPhase p).tickResponse = s.tickResponse := rfl
@[simp] theorem State.withPhase_mainResponse (s : State) (p : Phase) : (s.withPhase p).mainResponse = s.mainResponse := rfl

@[simp] theorem State.withKind_cfg (s : State) (k : Kind) : (s.withKind k).cfg = s.cfg := rfl
@[simp] theorem State.withKind_bus (s : State) (k : Kind) : (s.withKind k).bus = s.bus := rfl
@[simp] theorem State.withKind_sensor (s : State) (k : Kind) : (s.withKind k).sensor = { s.sensor with kind := k } := rfl
@[simp] theorem State.withKind_channels (s : State) (k : Kind) : (s.withKind k).channels = s.channels := rfl
@[simp] theorem State.withKind_thermal (s : State) (k : Kind) : (s.withKind k).thermal = s.thermal := rfl
@[simp] theorem State.withKind_duty (s : State) (k : Kind) : (s.withKind k).duty = s.duty := rfl
@[simp] theorem State.withKind_inputs (s : State) (k : Kind) : (s.withKind k).inputs = s.inputs := rfl
@[simp] theorem State.withKind_tickResponse (s : State) (k : Kind) : (s.withKind k).tickResponse = s.tickResponse := rfl
@[simp] theorem State.withKind_mainResponse (s : State) (k : Kind) : (s.withKind k).mainResponse = s.mainResponse := rfl

@[simp] theorem State.withThermal_cfg (s : State) (t : Thermal) : (s.withThermal t).cfg = s.cfg := rfl
@[simp] theorem State.withThermal_bus (s : State) (t : Thermal) : (s.withThermal t).bus = s.bus := rfl
@[simp] theorem State.withThermal_sensor (s : State) (t : Thermal) : (s.withThermal t).sensor = s.sensor := rfl
@[simp] theorem State.withThermal_channels (s : State) (t : Thermal) : (s.withThermal t).channels = s.channels := rfl
@[simp] theorem State.withThermal_thermal (s : State) (t : Thermal) : (s.withThermal t).thermal = t := rfl
@[simp] theorem State.withThermal_duty (s : State) (t : Thermal) : (s.withThermal t).duty = s.duty := rfl
@[simp] theorem State.withThermal_inputs (s : State) (t : Thermal) : (s.withThermal t).inputs = s.inputs := rfl
@[simp] theorem State.withThermal_tickResponse (s : State) (t : Thermal) : (s.withThermal t).tickResponse = s.tickResponse := rfl
@[simp] theorem State.withThermal_mainResponse (s : State) (t : Thermal) : (s.withThermal t).mainResponse = s.mainResponse := rfl

@[simp] theorem State.withDuty_cfg (s : State) (v : Byte) : (s.withDuty v).cfg = s.cfg := rfl
@[simp] theorem State.withDuty_bus (s : State) (v : Byte) : (s.withDuty v).bus = s.bus := rfl
@[simp] theorem State.withDuty_sensor (s : State) (v : Byte) : (s.withDuty v).sensor = s.sensor := rfl
@[simp] theorem State.withDuty_channels (s : State) (v : Byte) : (s.withDuty v).channels = s.channels := rfl
@[simp] theorem State.withDuty_thermal (s : State) (v : Byte) : (s.withDuty v).thermal = s.thermal := rfl
@[simp] theorem State.withDuty_duty (s : State) (v : Byte) : (s.withDuty v).duty = v := rfl
@[simp] theorem State.withDuty_inputs (s : State) (v : Byte) : (s.withDuty v).inputs = s.inputs := rfl
@[simp] theorem State.withDuty_tickResponse (s : State) (v : Byte) : (s.withDuty v).tickResponse = s.tickResponse := rfl
@[simp] theorem State.withDuty_mainResponse (s : State) (v : Byte) : (s.withDuty v).mainResponse = s.mainResponse := rfl

@[simp] theorem State.withInputs_cfg (s : State) (ins : List Input) : (s.withInputs ins).cfg = s.cfg := rfl
@[simp] theorem State.withInputs_bus (s : State) (ins : List Input) : (s.withInputs ins).bus = s.bus := rfl
@[simp] theorem State.withInputs_sensor (s : State) (ins : List Input) : (s.withInputs ins).sensor = s.sensor := rfl
@[simp] theorem State.withInputs_channels (s : State) (ins : List Input) : (s.withInputs ins).channels = s.channels := rfl
@[simp] theorem State.withInputs_thermal (s : State) (ins : List Input) : (s.withInputs ins).thermal = s.thermal := rfl
@[simp] theorem State.withInputs_duty (s : State) (ins : List Input) : (s.withInputs ins).duty = s.duty := rfl
@[simp] theorem State.withInputs_inputs (s : State) (ins : List Input) : (s.withInputs ins).inputs = ins := rfl
@[simp] theorem State.withInputs_tickResponse (s : State) (ins : List Input) : (s.withInputs ins).tickResponse = s.tickResponse := rfl
@[simp] theorem State.withInputs_mainResponse (s : State) (ins : List Input) : (s.withInputs ins).mainResponse = s.mainResponse := rfl

@[simp] theorem State.withChannel_cfg (s : State) (ch : Byte) (k : Channel) : (s.withChannel ch k).cfg = s.cfg := rfl
@[simp] theorem State.withChannel_bus (s : State) (ch : Byte) (k : Channel) : (s.withChannel ch k).bus = s.bus := rfl
@[simp] theorem State.withChannel_sensor (s : State) (ch : Byte) (k : Channel) : (s.withChannel ch k).sensor = s.sensor := rfl
@[simp] theorem State.withChannel_channels (s : State) (ch : Byte) (k : Channel) : (s.withChannel ch k).channels = s.channels.set ch.toNat k := rfl
@[simp] theorem State.withChannel_thermal (s : State) (ch : Byte) (k : Channel) : (s.withChannel ch k).thermal = s.thermal := rfl
@[simp] theorem State.withChannel_duty (s : State) (ch : Byte) (k : Channel) : (s.withChannel ch k).duty = s.duty := rfl
@[simp] theorem State.withChannel_inputs (s : State) (ch : Byte) (k : Channel) : (s.withChannel ch k).inputs = s.inputs := rfl
@[simp] theorem State.withChannel_tickResponse (s : State) (ch : Byte) (k : Channel) : (s.withChannel ch k).tickResponse = s.tickResponse := rfl
@[simp] theorem State.withChannel_mainResponse (s : State) (ch : Byte) (k : Channel) : (s.withChannel ch k).mainResponse = s.mainResponse := rfl

@[simp] theorem State.answer_tick_cfg (s : State) (st : Status) (l : List Byte) : (s.answer .tick st l).cfg = s.cfg := rfl
@[simp] theorem State.answer_tick_bus (s : State) (st : Status) (l : List Byte) : (s.answer .tick st l).bus = s.bus := rfl
@[simp] theorem State.answer_tick_sensor (s : State) (st : Status) (l : List Byte) : (s.answer .tick st l).sensor = s.sensor := rfl
@[simp] theorem State.answer_tick_channels (s : State) (st : Status) (l : List Byte) : (s.answer .tick st l).channels = s.channels := rfl
@[simp] theorem State.answer_tick_thermal (s : State) (st : Status) (l : List Byte) : (s.answer .tick st l).thermal = s.thermal := rfl
@[simp] theorem State.answer_tick_duty (s : State) (st : Status) (l : List Byte) : (s.answer .tick st l).duty = s.duty := rfl
@[simp] theorem State.answer_tick_inputs (s : State) (st : Status) (l : List Byte) : (s.answer .tick st l).inputs = s.inputs := rfl
@[simp] theorem State.answer_tick_tickResponse (s : State) (st : Status) (l : List Byte) : (s.answer .tick st l).tickResponse = responseBytes st l := rfl
@[simp] theorem State.answer_tick_mainResponse (s : State) (st : Status) (l : List Byte) : (s.answer .tick st l).mainResponse = s.mainResponse := rfl

@[simp] theorem State.answer_main_cfg (s : State) (st : Status) (l : List Byte) : (s.answer .main st l).cfg = s.cfg := rfl
@[simp] theorem State.answer_main_bus (s : State) (st : Status) (l : List Byte) : (s.answer .main st l).bus = s.bus := rfl
@[simp] theorem State.answer_main_sensor (s : State) (st : Status) (l : List Byte) : (s.answer .main st l).sensor = s.sensor := rfl
@[simp] theorem State.answer_main_channels (s : State) (st : Status) (l : List Byte) : (s.answer .main st l).channels = s.channels := rfl
@[simp] theorem State.answer_main_thermal (s : State) (st : Status) (l : List Byte) : (s.answer .main st l).thermal = s.thermal := rfl
@[simp] theorem State.answer_main_duty (s : State) (st : Status) (l : List Byte) : (s.answer .main st l).duty = s.duty := rfl
@[simp] theorem State.answer_main_inputs (s : State) (st : Status) (l : List Byte) : (s.answer .main st l).inputs = s.inputs := rfl
@[simp] theorem State.answer_main_tickResponse (s : State) (st : Status) (l : List Byte) : (s.answer .main st l).tickResponse = s.tickResponse := rfl
@[simp] theorem State.answer_main_mainResponse (s : State) (st : Status) (l : List Byte) : (s.answer .main st l).mainResponse = responseBytes st l := rfl

@[simp] theorem State.answerError_tick_cfg (s : State) (st : Status) : (s.answerError .tick st).cfg = s.cfg := rfl
@[simp] theorem State.answerError_tick_bus (s : State) (st : Status) : (s.answerError .tick st).bus = s.bus := rfl
@[simp] theorem State.answerError_tick_sensor (s : State) (st : Status) : (s.answerError .tick st).sensor = s.sensor := rfl
@[simp] theorem State.answerError_tick_channels (s : State) (st : Status) : (s.answerError .tick st).channels = s.channels := rfl
@[simp] theorem State.answerError_tick_thermal (s : State) (st : Status) : (s.answerError .tick st).thermal = s.thermal := rfl
@[simp] theorem State.answerError_tick_duty (s : State) (st : Status) : (s.answerError .tick st).duty = s.duty := rfl
@[simp] theorem State.answerError_tick_inputs (s : State) (st : Status) : (s.answerError .tick st).inputs = s.inputs := rfl
@[simp] theorem State.answerError_tick_tickResponse (s : State) (st : Status) : (s.answerError .tick st).tickResponse = [statusByte st] := by
  cases st <;> rfl
@[simp] theorem State.answerError_tick_mainResponse (s : State) (st : Status) : (s.answerError .tick st).mainResponse = s.mainResponse := rfl

@[simp] theorem State.answerError_main_cfg (s : State) (st : Status) : (s.answerError .main st).cfg = s.cfg := rfl
@[simp] theorem State.answerError_main_bus (s : State) (st : Status) : (s.answerError .main st).bus = s.bus := rfl
@[simp] theorem State.answerError_main_sensor (s : State) (st : Status) : (s.answerError .main st).sensor = s.sensor := rfl
@[simp] theorem State.answerError_main_channels (s : State) (st : Status) : (s.answerError .main st).channels = s.channels := rfl
@[simp] theorem State.answerError_main_thermal (s : State) (st : Status) : (s.answerError .main st).thermal = s.thermal := rfl
@[simp] theorem State.answerError_main_duty (s : State) (st : Status) : (s.answerError .main st).duty = s.duty := rfl
@[simp] theorem State.answerError_main_inputs (s : State) (st : Status) : (s.answerError .main st).inputs = s.inputs := rfl
@[simp] theorem State.answerError_main_tickResponse (s : State) (st : Status) : (s.answerError .main st).tickResponse = s.tickResponse := rfl
@[simp] theorem State.answerError_main_mainResponse (s : State) (st : Status) : (s.answerError .main st).mainResponse = [statusByte st] := by
  cases st <;> rfl

@[simp] theorem State.blockReset_cfg (s : State) : s.blockReset.cfg = s.cfg := rfl
@[simp] theorem State.blockReset_bus (s : State) : s.blockReset.bus = { Bus.reset with peer := s.bus.peer, draws := s.bus.draws } := rfl
@[simp] theorem State.blockReset_sensor (s : State) : s.blockReset.sensor = Sensor.reset := rfl
@[simp] theorem State.blockReset_channels (s : State) : s.blockReset.channels = List.replicate s.cfg.nb Channel.reset := rfl
@[simp] theorem State.blockReset_thermal (s : State) : s.blockReset.thermal = Thermal.reset s.cfg := rfl
@[simp] theorem State.blockReset_duty (s : State) : s.blockReset.duty = 0 := rfl
@[simp] theorem State.blockReset_inputs (s : State) : s.blockReset.inputs = s.inputs := rfl
@[simp] theorem State.blockReset_tickResponse (s : State) : s.blockReset.tickResponse = [] := rfl
@[simp] theorem State.blockReset_mainResponse (s : State) : s.blockReset.mainResponse = [] := rfl

@[simp] theorem State.resetWith_cfg (c : Config) : (State.resetWith c).cfg = c := rfl
@[simp] theorem State.resetWith_bus (c : Config) : (State.resetWith c).bus = Bus.reset := rfl
@[simp] theorem State.resetWith_sensor (c : Config) : (State.resetWith c).sensor = Sensor.reset := rfl
@[simp] theorem State.resetWith_channels (c : Config) : (State.resetWith c).channels = List.replicate c.nb Channel.reset := rfl
@[simp] theorem State.resetWith_thermal (c : Config) : (State.resetWith c).thermal = Thermal.reset c := rfl
@[simp] theorem State.resetWith_duty (c : Config) : (State.resetWith c).duty = 0 := rfl
@[simp] theorem State.resetWith_inputs (c : Config) : (State.resetWith c).inputs = [] := rfl
@[simp] theorem State.resetWith_tickResponse (c : Config) : (State.resetWith c).tickResponse = [] := rfl
@[simp] theorem State.resetWith_mainResponse (c : Config) : (State.resetWith c).mainResponse = [] := rfl

/-- A response with a status that carries no result is the status byte (R71). -/
theorem State.answerError_eq_answer (s : State) (p : Port) (st : Status) : s.answerError p st = s.answer p st [] := rfl

@[simp] theorem responseBytes_ok (l : List Byte) : responseBytes .ok l = 0x00 :: l := rfl

@[simp] theorem responseBytes_saturated (l : List Byte) : responseBytes .saturated l = 0x04 :: l := rfl

@[simp] theorem responseBytes_nil (st : Status) : responseBytes st [] = [statusByte st] := by cases st <;> rfl

@[simp] theorem statusByte_ok : statusByte .ok = 0x00 := rfl

@[simp] theorem statusByte_busNack : statusByte .busNack = 0x01 := rfl

@[simp] theorem statusByte_timeout : statusByte .timeout = 0x02 := rfl

@[simp] theorem statusByte_checksum : statusByte .checksum = 0x03 := rfl

@[simp] theorem statusByte_saturated : statusByte .saturated = 0x04 := rfl

@[simp] theorem statusByte_refused : statusByte .refused = 0xFE := rfl

@[simp] theorem statusByte_illegal : statusByte .illegal = 0xFF := rfl

end Sys2Proof.Machine
end

