-- ==== Sys2Proof/Laws/Bus.lean ====
section
/-!
SUPPORT. Lists of bus actions: what running one does to the lines, the trace, the peer's settled answers and the samples, and
the four programs of BitbangProtocol.
-/

namespace Sys2Proof.Machine

/-- Running a list of actions from a bus and the samples already taken. -/
def runFrom (program : List BusOp) (r : Bus × List Bool) : Bus × List Bool :=
  program.foldl (fun r op => busStep op r) r

theorem Bus.run_eq_runFrom (b : Bus) (program : List BusOp) : b.run program = runFrom program (b, []) := rfl

@[simp] theorem runFrom_nil (r : Bus × List Bool) : runFrom [] r = r := rfl

theorem runFrom_cons (op : BusOp) (program : List BusOp) (r : Bus × List Bool) :
    runFrom (op :: program) r = runFrom program (busStep op r) := rfl

theorem runFrom_append (p q : List BusOp) (r : Bus × List Bool) :
    runFrom (p ++ q) r = runFrom q (runFrom p r) := by
  simp [runFrom, List.foldl_append]

/-- The lines after a program do not depend on the peer. -/
theorem runFrom_pins (p : List BusOp) (r : Bus × List Bool) :
    ((runFrom p r).1.dataDrv, (runFrom p r).1.sck) = pinsAfter p (r.1.dataDrv, r.1.sck) := by
  induction p generalizing r with
  | nil => rfl
  | cons op p ih =>
    rw [runFrom_cons, ih]
    cases op <;> rfl

/-- A program takes as many samples as it has sample actions. -/
theorem runFrom_samples_length (p : List BusOp) (r : Bus × List Bool) :
    (runFrom p r).2.length = r.2.length + samplesIn p := by
  induction p generalizing r with
  | nil => rfl
  | cons op p ih =>
    rw [runFrom_cons, ih]
    cases op <;> (simp [busStep, samplesIn]; try omega)

/-- Each action adds one entry to the trace. -/
theorem runFrom_trace_length (p : List BusOp) (r : Bus × List Bool) :
    (runFrom p r).1.trace.length = r.1.trace.length + p.length := by
  induction p generalizing r with
  | nil => rfl
  | cons op p ih =>
    rw [runFrom_cons, ih]
    cases op <;> simp [busStep] <;> omega

/-- The samples already taken stay in front. -/
theorem runFrom_got (p : List BusOp) (b : Bus) (got : List Bool) :
    runFrom p (b, got) = ((b.run p).1, got ++ (b.run p).2) := by
  have key : ∀ (p : List BusOp) (b : Bus) (got more : List Bool),
      runFrom p (b, got ++ more) = ((runFrom p (b, more)).1, got ++ (runFrom p (b, more)).2) := by
    intro p
    induction p with
    | nil => intro b got more; rfl
    | cons op p ih =>
      intro b got more
      rw [runFrom_cons, runFrom_cons]
      cases op
      case sample =>
        have h := ih { b with trace := b.trace ++ [.s b.level], peer := b.peer.tail, draws := b.draws + 1 }
          got (more ++ [b.level])
        simpa [busStep, List.append_assoc] using h
      all_goals exact ih _ got more
  simpa [Bus.run_eq_runFrom] using key p b got []

theorem pinsAfter_cons (op : BusOp) (p : List BusOp) (pins : Bool × Bool) :
    pinsAfter (op :: p) pins = pinsAfter p (pinsAfter [op] pins) := rfl

theorem pinsAfter_append (p q : List BusOp) (pins : Bool × Bool) :
    pinsAfter (p ++ q) pins = pinsAfter q (pinsAfter p pins) := by
  simp [pinsAfter, List.foldl_append]

@[simp] theorem samplesIn_append (p q : List BusOp) : samplesIn (p ++ q) = samplesIn p + samplesIn q := by
  simp [samplesIn]

/-- The lines after one action are those `pinsAfter` gives. -/
theorem busStep_pins (op : BusOp) (r : Bus × List Bool) :
    ((busStep op r).1.dataDrv, (busStep op r).1.sck) = pinsAfter [op] (r.1.dataDrv, r.1.sck) := by
  cases op <;> rfl

/-- One action takes a sample or does not. -/
theorem busStep_got_length (op : BusOp) (r : Bus × List Bool) :
    (busStep op r).2.length = r.2.length + samplesIn [op] := by
  cases op <;> simp [busStep, samplesIn]

@[simp] theorem startProgram_length (c : Config) : (startProgram c).length = 14 := rfl

@[simp] theorem resetProgram_length (c : Config) : (resetProgram c).length = 51 := rfl

@[simp] theorem writeProgram_length (c : Config) (v : Byte) : (writeProgram c v).length = 46 := rfl

@[simp] theorem readProgram_length (c : Config) (a : Bool) : (readProgram c a).length = 49 := rfl

@[simp] theorem commandProgram_length (c : Config) (k : Kind) : (commandProgram c k).length = 60 := by
  simp [commandProgram]

@[simp] theorem resultProgram_length (c : Config) : (resultProgram c).length = 147 := by
  simp [resultProgram]

@[simp] theorem startProgram_pins (c : Config) (pins : Bool × Bool) : pinsAfter (startProgram c) pins = (true, false) := rfl

@[simp] theorem resetProgram_pins (c : Config) (pins : Bool × Bool) : pinsAfter (resetProgram c) pins = (true, false) := rfl

@[simp] theorem writeProgram_pins (c : Config) (v : Byte) (pins : Bool × Bool) :
    pinsAfter (writeProgram c v) pins = (true, false) := rfl

@[simp] theorem readProgram_pins (c : Config) (a : Bool) (pins : Bool × Bool) :
    pinsAfter (readProgram c a) pins = (true, false) := rfl

@[simp] theorem commandProgram_pins (c : Config) (k : Kind) (pins : Bool × Bool) :
    pinsAfter (commandProgram c k) pins = (true, false) := by
  rw [commandProgram, pinsAfter_append, writeProgram_pins]

@[simp] theorem resultProgram_pins (c : Config) (pins : Bool × Bool) :
    pinsAfter (resultProgram c) pins = (true, false) := by
  simp [resultProgram, pinsAfter_append]

@[simp] theorem writeProgram_samples (c : Config) (v : Byte) : samplesIn (writeProgram c v) = 1 := by
  simp [samplesIn, writeProgram, writeBit, bitsOfByte]

@[simp] theorem readProgram_samples (c : Config) (a : Bool) : samplesIn (readProgram c a) = 8 := by
  simp [samplesIn, readProgram, readBit, List.replicate]

@[simp] theorem commandProgram_samples (c : Config) (k : Kind) : samplesIn (commandProgram c k) = 1 := by
  rw [commandProgram, samplesIn_append, writeProgram_samples]
  simp [samplesIn, startProgram]

@[simp] theorem resultProgram_samples (c : Config) : samplesIn (resultProgram c) = 24 := by
  simp [resultProgram]

/-- The trace entries of a list of actions, its samples having returned these bits. -/
def fill : List BusOp → List Bool → List BusAction
  | [], _ => []
  | .drive v :: p, bits => .d v :: fill p bits
  | .clock v :: p, bits => .c v :: fill p bits
  | .wait us :: p, bits => .w us :: fill p bits
  | .sample :: p, bits => .s (bits.headD true) :: fill p bits.tail

/-- The data line is released at every sample of the list, the drive being `drv` before it. -/
def releasedAtSamples : Bool → List BusOp → Bool
  | _, [] => true
  | _, .drive v :: p => releasedAtSamples v p
  | drv, .clock _ :: p => releasedAtSamples drv p
  | drv, .wait _ :: p => releasedAtSamples drv p
  | drv, .sample :: p => drv && releasedAtSamples drv p

/-- What the peer drives now agrees with its settled answers. -/
theorem peerAnswers_cons (b : Bus) (bits : List Bool)
    (h : ∀ (k : Nat) (x y : Bool), bits[k]? = some x → b.peer.tail[k]? = some y → x = y) :
    PeerAnswers b (b.peerNow :: bits) := by
  intro k x y hx hy
  cases hp : b.peer with
  | nil => rw [hp] at hy; simp at hy
  | cons z zs =>
    rw [hp] at hy
    cases k with
    | zero =>
      simp only [List.getElem?_cons_zero, Option.some.injEq, Bus.peerNow, hp] at hx hy
      rw [← hx, ← hy]
    | succ k => exact h k x y (by simpa using hx) (by simpa [hp] using hy)

/-- Everything a list of actions does to the bus, said once: the lines, the trace, the peer's answers used up, the samples.
The data line being released at every sample, the samples are the peer's answers (R63, R64). -/
theorem run_spec (p : List BusOp) (b : Bus) (h : releasedAtSamples b.dataDrv p = true) :
    ∃ bits, bits.length = samplesIn p ∧ PeerAnswers b bits ∧
      b.run p = ({
        dataDrv := (pinsAfter p (b.dataDrv, b.sck)).1
        sck := (pinsAfter p (b.dataDrv, b.sck)).2
        trace := b.trace ++ fill p bits
        peer := b.peer.drop (samplesIn p)
        draws := b.draws + samplesIn p }, bits) := by
  induction p generalizing b with
  | nil => exact ⟨[], rfl, by simp [PeerAnswers], by simp [Bus.run, pinsAfter, fill, samplesIn]⟩
  | cons op p ih =>
    cases op
    case sample =>
      simp only [releasedAtSamples, Bool.and_eq_true] at h
      have hl : b.level = b.peerNow := by simp [Bus.level, h.1]
      obtain ⟨bits, hlen, hpeer, hrun⟩ := ih
        { b with trace := b.trace ++ [.s b.level], peer := b.peer.tail, draws := b.draws + 1 } h.2
      refine ⟨b.peerNow :: bits, by simpa [samplesIn] using hlen, peerAnswers_cons b bits hpeer, ?_⟩
      rw [Bus.run_eq_runFrom, runFrom_cons, busStep, runFrom_got, hrun]
      simp [pinsAfter, fill, samplesIn, hl, List.drop_tail]
      omega
    case drive v =>
      obtain ⟨bits, hlen, hpeer, hrun⟩ := ih { b with dataDrv := v, trace := b.trace ++ [.d v] } h
      refine ⟨bits, by simpa [samplesIn] using hlen, hpeer, ?_⟩
      rw [Bus.run_eq_runFrom, runFrom_cons, busStep, ← Bus.run_eq_runFrom, hrun]
      simp [pinsAfter, fill, samplesIn]
    case clock v =>
      obtain ⟨bits, hlen, hpeer, hrun⟩ := ih { b with sck := v, trace := b.trace ++ [.c v] } h
      refine ⟨bits, by simpa [samplesIn] using hlen, hpeer, ?_⟩
      rw [Bus.run_eq_runFrom, runFrom_cons, busStep, ← Bus.run_eq_runFrom, hrun]
      simp [pinsAfter, fill, samplesIn]
    case wait us =>
      obtain ⟨bits, hlen, hpeer, hrun⟩ := ih { b with trace := b.trace ++ [.w us] } h
      refine ⟨bits, by simpa [samplesIn] using hlen, hpeer, ?_⟩
      rw [Bus.run_eq_runFrom, runFrom_cons, busStep, ← Bus.run_eq_runFrom, hrun]
      simp [pinsAfter, fill, samplesIn]

/-- Settled answers leave no choice. -/
theorem peerAnswers_unique (b : Bus) (bits answers later : List Bool) (h : PeerAnswers b bits)
    (hlen : bits.length = answers.length) (hp : b.peer = answers ++ later) : bits = answers := by
  apply List.ext_getElem?
  intro k
  by_cases hk : k < bits.length
  · have hk' : k < answers.length := hlen ▸ hk
    have := h k bits[k] answers[k] (List.getElem?_eq_getElem hk)
      (by rw [hp, List.getElem?_append_left hk', List.getElem?_eq_getElem hk'])
    rw [List.getElem?_eq_getElem hk, List.getElem?_eq_getElem hk', this]
  · rw [List.getElem?_eq_none (by omega), List.getElem?_eq_none (by omega)]

/-- A list of actions against settled answers. -/
theorem run_settled (p : List BusOp) (b : Bus) (answers later : List Bool)
    (h : releasedAtSamples b.dataDrv p = true) (hlen : answers.length = samplesIn p)
    (hp : b.peer = answers ++ later) :
    b.run p = ({
      dataDrv := (pinsAfter p (b.dataDrv, b.sck)).1
      sck := (pinsAfter p (b.dataDrv, b.sck)).2
      trace := b.trace ++ fill p answers
      peer := later
      draws := b.draws + samplesIn p }, answers) := by
  obtain ⟨bits, hb, hpeer, hrun⟩ := run_spec p b h
  have : bits = answers := peerAnswers_unique b bits answers later hpeer (hb.trans hlen.symm) hp
  subst this
  rw [hrun, hp, List.drop_left' hlen]

theorem fill_append (p q : List BusOp) (bits : List Bool) :
    fill (p ++ q) bits = fill p bits ++ fill q (bits.drop (samplesIn p)) := by
  induction p generalizing bits with
  | nil => simp [fill, samplesIn]
  | cons op p ih =>
    cases op
    case sample =>
      simp only [List.cons_append, fill, ih]
      simp [samplesIn, List.drop_tail]
    all_goals simp [fill, ih, samplesIn]

theorem releasedAtSamples_append (p q : List BusOp) (pins : Bool × Bool) :
    releasedAtSamples pins.1 (p ++ q) = (releasedAtSamples pins.1 p && releasedAtSamples (pinsAfter p pins).1 q) := by
  induction p generalizing pins with
  | nil => simp [releasedAtSamples, pinsAfter]
  | cons op p ih =>
    rw [pinsAfter_cons, List.cons_append]
    cases op with
    | drive v => exact ih (v, pins.2)
    | clock v => exact ih (pins.1, v)
    | wait us => exact ih pins
    | sample =>
      have h : pinsAfter [.sample] pins = pins := rfl
      rw [h, releasedAtSamples, releasedAtSamples, ih pins, Bool.and_assoc]

@[simp] theorem startProgram_fill (c : Config) (bits : List Bool) : fill (startProgram c) bits = startTrace c := rfl

@[simp] theorem resetProgram_fill (c : Config) (bits : List Bool) : fill (resetProgram c) bits = resetTrace c := rfl

@[simp] theorem writeProgram_fill (c : Config) (v : Byte) (nack : Bool) :
    fill (writeProgram c v) [nack] = writeTrace c v nack := rfl

@[simp] theorem startProgram_released (c : Config) (drv : Bool) : releasedAtSamples drv (startProgram c) = true := rfl

@[simp] theorem resetProgram_released (c : Config) (drv : Bool) : releasedAtSamples drv (resetProgram c) = true := rfl

@[simp] theorem writeProgram_released (c : Config) (v : Byte) (drv : Bool) :
    releasedAtSamples drv (writeProgram c v) = true := rfl

@[simp] theorem readProgram_released (c : Config) (a : Bool) (drv : Bool) :
    releasedAtSamples drv (readProgram c a) = true := rfl

@[simp] theorem commandProgram_released (c : Config) (k : Kind) (drv : Bool) :
    releasedAtSamples drv (commandProgram c k) = true := by
  have := releasedAtSamples_append (startProgram c) (writeProgram c (commandByte c k)) (drv, false)
  simpa [commandProgram] using this

@[simp] theorem resultProgram_released (c : Config) (drv : Bool) : releasedAtSamples drv (resultProgram c) = true := by
  have h1 := releasedAtSamples_append (readProgram c true ++ readProgram c true) (readProgram c false) (drv, false)
  have h2 := releasedAtSamples_append (readProgram c true) (readProgram c true) (drv, false)
  simp only [resultProgram] at h1 h2 ⊢
  rw [h1, h2]
  simp

/-- Eight bits are those of the byte they make, bit 7 first (R55, R118). -/
theorem bits_of_byteOfBits (bits : List Bool) (h : bits.length = 8) : bitsOfByte (byteOfBits bits) = bits := by
  match bits, h with
  | [a, b, c, d, e, f, g, i], _ =>
    cases a <;> cases b <;> cases c <;> cases d <;> cases e <;> cases f <;> cases g <;> cases i <;> decide

@[simp] theorem byteOfBits_bitsOfByte (v : Byte) : byteOfBits (bitsOfByte v) = v := by
  revert v; decide +kernel

theorem bitsOfByte_length (v : Byte) : (bitsOfByte v).length = 8 := rfl

@[simp] theorem readProgram_fill (c : Config) (a : Bool) (v : Byte) :
    fill (readProgram c a) (bitsOfByte v) = readTrace c v a := by
  cases a <;> rfl

/-- The trace of START_MEASUREMENT (R134): the start waveform, then the command byte. -/
theorem commandProgram_fill (c : Config) (k : Kind) (nack : Bool) :
    fill (commandProgram c k) [nack] = startTrace c ++ writeTrace c (commandByte c k) nack := by
  rw [commandProgram, fill_append]
  rfl

/-- The trace of READ_RESULT (R138): three bytes, acknowledged, acknowledged, not acknowledged. -/
theorem resultProgram_fill (c : Config) (hi lo cs : Byte) :
    fill (resultProgram c) (resultBits hi lo cs) =
      readTrace c hi true ++ readTrace c lo true ++ readTrace c cs false := by
  rw [resultProgram, fill_append, fill_append, samplesIn_append, readProgram_samples]
  rfl

/-- A list of actions without a sample. -/
theorem run_without_samples (p : List BusOp) (b : Bus) (h : releasedAtSamples b.dataDrv p = true)
    (h0 : samplesIn p = 0) :
    b.run p = ({ b with
      dataDrv := (pinsAfter p (b.dataDrv, b.sck)).1
      sck := (pinsAfter p (b.dataDrv, b.sck)).2
      trace := b.trace ++ fill p [] }, []) := by
  obtain ⟨bits, hl, _, hr⟩ := run_spec p b h
  rw [h0] at hl
  obtain rfl := List.eq_nil_of_length_eq_zero hl
  rw [hr, h0]
  rfl

/-- START_MEASUREMENT's actions against any peer. -/
theorem run_command (c : Config) (k : Kind) (b : Bus) :
    ∃ nack, PeerAnswers b [nack] ∧ b.run (commandProgram c k) = ({
      dataDrv := true
      sck := false
      trace := b.trace ++ (startTrace c ++ writeTrace c (commandByte c k) nack)
      peer := b.peer.drop 1
      draws := b.draws + 1 }, [nack]) := by
  obtain ⟨bits, h1, h2, h3⟩ := run_spec (commandProgram c k) b (by simp)
  rw [commandProgram_samples] at h1
  obtain ⟨n, rfl⟩ := List.length_eq_one_iff.mp h1
  exact ⟨n, h2, by rw [h3, commandProgram_pins, commandProgram_samples, commandProgram_fill]⟩

/-- START_MEASUREMENT's actions against a peer whose answer is settled. -/
theorem run_command_settled (c : Config) (k : Kind) (b : Bus) (nack : Bool) (later : List Bool)
    (h : b.peer = nack :: later) :
    b.run (commandProgram c k) = ({
      dataDrv := true
      sck := false
      trace := b.trace ++ (startTrace c ++ writeTrace c (commandByte c k) nack)
      peer := later
      draws := b.draws + 1 }, [nack]) := by
  rw [run_settled (commandProgram c k) b [nack] later (by simp) (by simp) h]
  simp [commandProgram_fill]

/-- One sample of a released line, the peer's answer settled. -/
theorem run_check_settled (b : Bus) (x : Bool) (later : List Bool) (hd : b.dataDrv = true) (h : b.peer = x :: later) :
    b.run [.sample] = ({ b with trace := b.trace ++ [.s x], peer := later, draws := b.draws + 1 }, [x]) := by
  rw [run_settled [.sample] b [x] later (by simp [releasedAtSamples, hd]) rfl h]
  rfl

/-- READ_RESULT's actions against a peer whose three bytes are settled. -/
theorem run_result_settled (c : Config) (b : Bus) (hi lo cs : Byte) (later : List Bool)
    (h : b.peer = resultBits hi lo cs ++ later) :
    b.run (resultProgram c) = ({
      dataDrv := true
      sck := false
      trace := b.trace ++ (readTrace c hi true ++ readTrace c lo true ++ readTrace c cs false)
      peer := later
      draws := b.draws + 24 }, resultBits hi lo cs) := by
  rw [run_settled (resultProgram c) b (resultBits hi lo cs) later (by simp) (by rw [resultProgram_samples]; rfl) h,
    resultProgram_fill]
  simp

/-- Twenty-four samples are those of the three bytes they make. -/
theorem eq_resultBits (bits : List Bool) (h : bits.length = 24) :
    bits = resultBits (resultHi bits) (resultLo bits) (resultCs bits) := by
  unfold resultBits resultHi resultLo resultCs
  rw [bits_of_byteOfBits _ (by simp [h]), bits_of_byteOfBits _ (by simp [h]), bits_of_byteOfBits _ (by simp [h]),
    List.take_of_length_le (l := List.drop 16 bits) (by simp [h]), List.append_assoc,
    show List.drop 16 bits = List.drop 8 (List.drop 8 bits) by rw [List.drop_drop], List.take_append_drop,
    List.take_append_drop]

@[simp] theorem resultHi_resultBits (hi lo cs : Byte) : resultHi (resultBits hi lo cs) = hi := byteOfBits_bitsOfByte hi

@[simp] theorem resultLo_resultBits (hi lo cs : Byte) : resultLo (resultBits hi lo cs) = lo := byteOfBits_bitsOfByte lo

@[simp] theorem resultCs_resultBits (hi lo cs : Byte) : resultCs (resultBits hi lo cs) = cs := byteOfBits_bitsOfByte cs

end Sys2Proof.Machine
end

