-- ==== Sys2Proof/Laws/Config.lean ====
section
/-!
SUPPORT. The constraints of a configuration (R6, R104), one lemma for each, read once from `Config.ok`.
-/

namespace Sys2Proof

theorem Config.constraints (c : Config) :
    c.cmdHumi ≠ cmdTemp ∧ 1 ≤ c.pollMax ∧
    fitsI16 (c.exactTemperature 0) = true ∧ fitsI16 (c.exactTemperature 65535) = true ∧
    (1 ≤ c.nb ∧ c.nb ≤ 256) ∧ (1 ≤ c.shortPressLimit ∧ c.shortPressLimit ≤ 255) ∧
    (1 ≤ c.longPressFirstPeriod ∧ c.longPressFirstPeriod ≤ 255) ∧
    (1 ≤ c.longPressRepeatPeriod ∧ c.longPressRepeatPeriod ≤ 255) ∧
    (1 ≤ c.n ∧ c.n ≤ 256) ∧ (1 ≤ c.sampleBits ∧ c.sampleBits ≤ 16) ∧
    c.lowerThreshold < c.upperThreshold ∧ (1 ≤ c.period ∧ c.period ≤ 256) ∧ c.exampleCheck ≠ 0x00 := by
  have h := c.ok
  simp only [Parameters.valid, inRange, Bool.and_eq_true, decide_eq_true_eq, ne_eq, and_assoc] at h ⊢
  exact h

theorem Config.cmdHumi_ne (c : Config) : c.cmdHumi ≠ cmdTemp := c.constraints.1

theorem Config.pollMax_pos (c : Config) : 1 ≤ c.pollMax := c.constraints.2.1

theorem Config.temperature_zero_fits (c : Config) : fitsI16 (c.exactTemperature 0) = true := c.constraints.2.2.1

theorem Config.temperature_top_fits (c : Config) : fitsI16 (c.exactTemperature 65535) = true := c.constraints.2.2.2.1

theorem Config.nb_pos (c : Config) : 1 ≤ c.nb := c.constraints.2.2.2.2.1.1

theorem Config.nb_le (c : Config) : c.nb ≤ 256 := c.constraints.2.2.2.2.1.2

theorem Config.shortPressLimit_pos (c : Config) : 1 ≤ c.shortPressLimit := c.constraints.2.2.2.2.2.1.1

theorem Config.shortPressLimit_le (c : Config) : c.shortPressLimit ≤ 255 := c.constraints.2.2.2.2.2.1.2

theorem Config.longPressFirstPeriod_pos (c : Config) : 1 ≤ c.longPressFirstPeriod := c.constraints.2.2.2.2.2.2.1.1

theorem Config.longPressFirstPeriod_le (c : Config) : c.longPressFirstPeriod ≤ 255 := c.constraints.2.2.2.2.2.2.1.2

theorem Config.longPressRepeatPeriod_pos (c : Config) : 1 ≤ c.longPressRepeatPeriod :=
  c.constraints.2.2.2.2.2.2.2.1.1

theorem Config.longPressRepeatPeriod_le (c : Config) : c.longPressRepeatPeriod ≤ 255 :=
  c.constraints.2.2.2.2.2.2.2.1.2

theorem Config.n_pos (c : Config) : 1 ≤ c.n := c.constraints.2.2.2.2.2.2.2.2.1.1

theorem Config.n_le (c : Config) : c.n ≤ 256 := c.constraints.2.2.2.2.2.2.2.2.1.2

theorem Config.sampleBits_pos (c : Config) : 1 ≤ c.sampleBits := c.constraints.2.2.2.2.2.2.2.2.2.1.1

theorem Config.sampleBits_le (c : Config) : c.sampleBits ≤ 16 := c.constraints.2.2.2.2.2.2.2.2.2.1.2

theorem Config.lower_lt_upper (c : Config) : c.lowerThreshold < c.upperThreshold := c.constraints.2.2.2.2.2.2.2.2.2.2.1

theorem Config.period_pos (c : Config) : 1 ≤ c.period := c.constraints.2.2.2.2.2.2.2.2.2.2.2.1.1

theorem Config.period_le (c : Config) : c.period ≤ 256 := c.constraints.2.2.2.2.2.2.2.2.2.2.2.1.2

/-- R104 (b). -/
theorem Config.exampleCheck_ne (c : Config) : c.exampleCheck ≠ 0x00 := c.constraints.2.2.2.2.2.2.2.2.2.2.2.2

end Sys2Proof
end

