-- ==== Sys2Proof/Laws/Convert.lean ====
section
/-!
SUPPORT. Facts under the statements about UnitConverter: truncation, the clamp, sixteen-bit results, and the binary32 helpers.
-/

namespace Sys2Proof.Machine

theorem trunc_of_nonneg (q : Rat) (h : 0 ≤ q) : trunc q = ⌊q⌋ := by
  rw [trunc, Int.tdiv_eq_ediv_of_nonneg (Rat.num_nonneg.mpr h), Rat.floor_def']

theorem trunc_neg (q : Rat) : trunc (-q) = -trunc q := by
  simp [trunc]

theorem trunc_of_nonpos (q : Rat) (h : q ≤ 0) : trunc q = -⌊-q⌋ := by
  rw [← trunc_of_nonneg (-q) (by linarith), trunc_neg, neg_neg]

/-- Truncation is monotone (R153). -/
theorem trunc_mono {a b : Rat} (h : a ≤ b) : trunc a ≤ trunc b := by
  rcases le_total 0 a with ha | ha
  · rw [trunc_of_nonneg a ha, trunc_of_nonneg b (ha.trans h)]
    exact Int.floor_le_floor h
  · rcases le_total 0 b with hb | hb
    · have h1 := Int.floor_nonneg.mpr (show 0 ≤ -a by linarith)
      have h2 := Int.floor_nonneg.mpr hb
      rw [trunc_of_nonpos a ha, trunc_of_nonneg b hb]
      omega
    · have h1 := Int.floor_le_floor (show -b ≤ -a by linarith)
      rw [trunc_of_nonpos a ha, trunc_of_nonpos b hb]
      omega

theorem clampPercent_eq (q : Rat) : clampPercent q = max 0 (min 100 q) := by
  unfold clampPercent
  split
  · rw [min_eq_right (by linarith), max_eq_left (by linarith)]
  · split
    · rw [min_eq_left (by linarith), max_eq_right (by norm_num)]
    · rw [min_eq_right (by linarith), max_eq_right (by linarith)]

theorem clampPercent_range (q : Rat) : 0 ≤ clampPercent q ∧ clampPercent q ≤ 100 := by
  unfold clampPercent
  split
  · constructor <;> linarith
  · split <;> constructor <;> linarith

/-- A number of a permille scale, truncated. -/
theorem trunc_range (q : Rat) (h0 : 0 ≤ q) (h1 : q ≤ 1000) : 0 ≤ trunc q ∧ trunc q ≤ 1000 := by
  rw [trunc_of_nonneg q h0]
  exact ⟨Int.floor_nonneg.mpr h0, by simpa using Int.floor_le_floor h1⟩

/-- A result that fits sixteen signed bits is read back from the word. -/
theorem ofInt_toInt_of_fits (z : Int) (h1 : -32768 ≤ z) (h2 : z ≤ 32767) : (BitVec.ofInt 16 z).toInt = z := by
  rw [BitVec.toInt_ofInt]
  simp [Int.bmod]
  omega

/-- What `toI16` gives for a result that fits. -/
theorem toI16_toInt (z : Int) (free : Word) (h1 : -32768 ≤ z) (h2 : z ≤ 32767) : (toI16 z free).toInt = z := by
  have h : fitsI16 z = true := by simp [fitsI16, h1, h2]
  rw [toI16, if_pos h, ofInt_toInt_of_fits z h1 h2]

theorem pow2_eq (e : Int) : pow2 e = (2 : Rat) ^ e := by
  unfold pow2
  split
  · rename_i h
    obtain ⟨n, rfl⟩ := Int.eq_ofNat_of_zero_le h
    simp
  · rename_i h
    obtain ⟨n, hn⟩ := Int.eq_ofNat_of_zero_le (show 0 ≤ -e by omega)
    rw [hn]
    obtain rfl : e = -(n : Int) := by omega
    simp

/-- The exponent the rounding uses is not too large. -/
theorem floorLog2_le (q : Rat) (h : 0 < q) : (2 : Rat) ^ floorLog2 q ≤ q := by
  have hn : 0 < q.num := Rat.num_pos.mpr h
  obtain ⟨n, hq⟩ := Int.eq_ofNat_of_zero_le hn.le
  have hn0 : n ≠ 0 := by
    rintro rfl
    rw [hq] at hn
    simp at hn
  unfold floorLog2
  dsimp only
  split
  · rename_i h'
    rwa [pow2_eq] at h'
  · rw [hq]
    have h1 : (2 : Rat) ^ Nat.log2 n ≤ n := by exact_mod_cast Nat.log2_self_le hn0
    have h2 : (q.den : Rat) < 2 ^ (Nat.log2 q.den + 1) := by exact_mod_cast Nat.lt_log2_self
    have hd : (0 : Rat) < q.den := by exact_mod_cast q.den_pos
    have e : q = (n : Rat) / q.den := by
      conv_lhs => rw [← Rat.num_div_den q, hq]
      simp
    rw [show ((Int.toNat (n : Int)).log2 : Int) - (q.den.log2 : Int) - 1 =
      ((n.log2 : Nat) : Int) - ((q.den.log2 + 1 : Nat) : Int) by push_cast; simp; ring,
      zpow_sub₀ (by norm_num), zpow_natCast, zpow_natCast]
    conv_rhs => rw [e]
    exact div_le_div₀ (by positivity) h1 hd h2.le

/-- What `rounded` answers. -/
theorem rounded_eq_some {q v : Rat} : rounded q = some v ↔ F32.round q = .fin v := by
  unfold rounded
  split <;> simp_all

theorem roundHalfEven_natCast (n : Nat) : roundHalfEven (n : Rat) = n := by
  unfold roundHalfEven
  simp [Nat.mod_one]

/-- Rounding to the nearest integer does not pass an integer above. -/
theorem roundHalfEven_le (q : Rat) (m : Nat) (h0 : 0 ≤ q) (h : q ≤ m) : roundHalfEven q ≤ m := by
  obtain ⟨n, hq⟩ := Int.eq_ofNat_of_zero_le (Rat.num_nonneg.mpr h0)
  have hd := q.den_pos
  have hle : n ≤ m * q.den := by
    have e : q = (n : Rat) / q.den := by
      conv_lhs => rw [← Rat.num_div_den q, hq]
      simp
    rw [e, div_le_iff₀ (by exact_mod_cast hd)] at h
    exact_mod_cast h
  have hdm := Nat.div_add_mod n q.den
  have hdiv : n / q.den ≤ m := Nat.div_le_of_le_mul (by rw [Nat.mul_comm]; exact hle)
  have key : n % q.den ≠ 0 → n / q.den + 1 ≤ m := by
    intro hne
    by_contra hc
    have hm : n / q.den = m := by omega
    rw [hm] at hdm
    have := Nat.mul_comm q.den m
    omega
  unfold roundHalfEven
  rw [hq]
  simp only [Int.toNat_natCast]
  split
  · exact hdiv
  · split
    · exact key (by omega)
    · split
      · exact hdiv
      · exact key (by omega)

/-- Operations on finite values (R152): exact, then rounded. -/
theorem F32.mul_fin (a b : Rat) : (F32.fin a).mul (.fin b) = F32.round (a * b) := rfl

theorem F32.add_fin (a b : Rat) : (F32.fin a).add (.fin b) = F32.round (a + b) := rfl

theorem F32.sub_fin (a b : Rat) : (F32.fin a).sub (.fin b) = F32.round (a - b) := by
  rw [sub_eq_add_neg]
  rfl

/-- Where `degreesRounded` answers, `dT` of `NUM_F32` is that value. -/
theorem degrees32_of_rounded {c : Config} {t : Nat} {dT : Rat} (h : degreesRounded c.toParameters t = some dT) :
    degrees32 c t = .fin dT := by
  simp only [degreesRounded, Option.bind_eq_bind, Option.bind_eq_some_iff, rounded_eq_some] at h
  obtain ⟨d1, hd1, d2, hd2, product, hp, hs⟩ := h
  rw [degrees32, hd1, hd2, F32.mul_fin, hp, F32.add_fin, hs]

/-- Where `linearRounded` answers, `dRH` of `NUM_F32` is that value. -/
theorem linearHumidity32_of_rounded {c : Config} {h : Nat} {dRH : Rat}
    (hr : linearRounded c.toParameters h = some dRH) : linearHumidity32 c h = .fin dRH := by
  simp only [linearRounded, Option.bind_eq_bind, Option.bind_eq_some_iff, rounded_eq_some] at hr
  obtain ⟨c1, h1, c2, h2, c3, h3, linear, hl, low, ho, square, hq, high, hh, hs⟩ := hr
  rw [linearHumidity32, h1, h2, h3, F32.mul_fin, hl, F32.add_fin, ho, F32.mul_fin, hq, F32.mul_fin, hh, F32.add_fin, hs]

/-- The exponent the rounding uses is not too small. -/
theorem lt_floorLog2_succ (q : Rat) (h : 0 < q) : q < (2 : Rat) ^ (floorLog2 q + 1) := by
  have hn : 0 < q.num := Rat.num_pos.mpr h
  obtain ⟨n, hq⟩ := Int.eq_ofNat_of_zero_le hn.le
  have hd : (0 : Rat) < q.den := by exact_mod_cast q.den_pos
  have e : q = (n : Rat) / q.den := by
    conv_lhs => rw [← Rat.num_div_den q, hq]
    simp
  unfold floorLog2
  dsimp only
  split
  · have h1 : (n : Rat) < 2 ^ (Nat.log2 n + 1) := by exact_mod_cast Nat.lt_log2_self
    have h2 : (2 : Rat) ^ Nat.log2 q.den ≤ q.den := by exact_mod_cast Nat.log2_self_le q.den_nz
    rw [hq, show ((Int.toNat (n : Int)).log2 : Int) - (q.den.log2 : Int) + 1 =
      ((n.log2 + 1 : Nat) : Int) - ((q.den.log2 : Nat) : Int) by push_cast; simp; ring,
      zpow_sub₀ (by norm_num), zpow_natCast, zpow_natCast]
    conv_lhs => rw [e]
    exact div_lt_div₀ h1 h2 (by positivity) (by positivity)
  · rename_i h'
    rw [pow2_eq, not_le] at h'
    rwa [sub_add_cancel]

/-- Rounding to an integer is to a nearest one, and of two nearest to the even one. -/
theorem roundHalfEven_nearest (q : Rat) (h0 : 0 ≤ q) (n : Int) :
    |q - roundHalfEven q| ≤ |q - n| ∧
      (n ≠ roundHalfEven q → |q - roundHalfEven q| = |q - n| → Even (roundHalfEven q)) := by
  obtain ⟨p, hq⟩ := Int.eq_ofNat_of_zero_le (Rat.num_nonneg.mpr h0)
  have hd : (0 : Rat) < q.den := by exact_mod_cast q.den_pos
  have e : q = (p : Rat) / q.den := by
    conv_lhs => rw [← Rat.num_div_den q, hq]
    simp
  have scale : ∀ z : Int, |q - z| = ((|(p : Int) - z * q.den| : Int) : Rat) / q.den := by
    intro z
    have h : q - z = (((p : Int) - z * q.den : Int) : Rat) / q.den := by
      push_cast
      rw [sub_div, mul_div_cancel_right₀ _ hd.ne', ← e]
    rw [h, abs_div, abs_of_pos hd, Int.cast_abs]
  have hN := scale (roundHalfEven q)
  rw [Int.cast_natCast] at hN
  rw [hN, scale n, div_le_div_iff_of_pos_right hd, div_left_inj' hd.ne', Int.cast_le, Int.cast_inj]
  have hdm := Nat.div_add_mod p q.den
  have hml := Nat.mod_lt p q.den_pos
  have hdpos := q.den_pos
  unfold roundHalfEven
  rw [hq]
  simp only [Int.toNat_natCast]
  generalize q.den = d at *
  generalize p / d = f at *
  generalize p % d = r at *
  subst hdm
  have lo : ∀ k : Int, n = f - k → (((d * f + r : Nat) : Int) - n * d) = r + k * d := by
    intro k hk; subst hk; push_cast; ring
  have hk := lo (f - n) (by ring)
  rw [hk]
  generalize hkk : (f : Int) - n = k at *
  have e1 : (((d * f + r : Nat) : Int) - (f : Nat) * d) = r := by push_cast; ring
  have e2 : (((d * f + r : Nat) : Int) - ((f + 1 : Nat) : Int) * d) = r - d := by push_cast; ring
  have hcases : k = 0 ∨ k = -1 ∨ 1 ≤ k ∨ k ≤ -2 := by omega
  have big1 : 1 ≤ k → (d : Int) ≤ k * d := fun h => by nlinarith
  have big2 : k ≤ -2 → k * d ≤ -2 * (d : Int) := fun h => by nlinarith
  split
  · rw [e1]
    rcases hcases with h | h | h | h
    · subst h; simp; intro hc; omega
    · subst h; constructor
      · rw [abs_of_nonneg (by omega)]; rw [abs_of_nonpos (by omega)]; omega
      · intro _ ht; rw [abs_of_nonneg (by omega), abs_of_nonpos (by omega)] at ht; omega
    · have := big1 h
      constructor
      · rw [abs_of_nonneg (by omega), abs_of_nonneg (by omega)]; omega
      · intro _ ht; rw [abs_of_nonneg (by omega), abs_of_nonneg (by omega)] at ht; omega
    · have := big2 h
      constructor
      · rw [abs_of_nonneg (by omega), abs_of_nonpos (by omega)]; omega
      · intro _ ht; rw [abs_of_nonneg (by omega), abs_of_nonpos (by omega)] at ht; omega
  · have up : |(r : Int) - d| ≤ |(r : Int) + k * d| ∧ (n ≠ ((f + 1 : Nat) : Int) → |(r : Int) - d| = |(r : Int) + k * d| → 2 * r = d) := by
      rcases hcases with h | h | h | h
      · subst h; simp only [zero_mul, add_zero]
        rw [abs_of_nonpos (by omega), abs_of_nonneg (by omega)]
        constructor
        · omega
        · omega
      · subst h; constructor
        · apply le_of_eq; congr 1; ring
        · intro hc; omega
      · have := big1 h
        rw [abs_of_nonpos (by omega), abs_of_nonneg (by omega)]
        constructor <;> omega
      · have := big2 h
        rw [abs_of_nonpos (by omega), abs_of_nonpos (by omega)]
        constructor <;> omega
    split
    · rw [e2]
      exact ⟨up.1, fun h1 h2 => by have := up.2 h1 h2; omega⟩
    · split
      · rename_i hev
        have hr : 2 * r = d := by omega
        rw [e1]
        refine ⟨?_, fun _ _ => Nat.even_iff.mpr hev⟩
        have : |(r : Int)| = |(r : Int) - d| := by rw [abs_of_nonneg (by omega), abs_of_nonpos (by omega)]; omega
        rw [this]; exact up.1
      · rw [e2]
        exact ⟨up.1, fun _ _ => Nat.even_iff.mpr (by omega)⟩

end Sys2Proof.Machine
end

