-- ==== Sys2Proof/Laws/Decode.lean ====
section
/-!
SUPPORT. Lemmas about the parts of the decoder and the encoder: opcode bytes, single operands, words as two bytes, and the
domain checks.
-/

namespace Sys2Proof

@[simp] theorem Opcode.ofByte_code (o : Opcode) : Opcode.ofByte o.code = some o := by
  cases o <;> decide

theorem Opcode.code_of_ofByte (b : Byte) (o : Opcode) (h : Opcode.ofByte b = some o) : o.code = b := by
  have := List.find?_some h
  simpa using this

@[simp] theorem boolOperand_boolByte (b : Bool) : boolOperand (boolByte b) = some b := by cases b <;> rfl

@[simp] theorem kindOperand_kindByte (k : Kind) : kindOperand (kindByte k) = some k := by cases k <;> rfl

theorem boolByte_of_boolOperand (b : Byte) (x : Bool) (h : boolOperand b = some x) : boolByte x = b := by
  unfold boolOperand at h
  split at h
  · cases h
    simp_all [boolByte]
  · split at h
    · cases h
      simp_all [boolByte]
    · cases h

theorem kindByte_of_kindOperand (b : Byte) (k : Kind) (h : kindOperand b = some k) : kindByte k = b := by
  unfold kindOperand at h
  split at h
  · cases h
    simp_all [kindByte]
  · split at h
    · cases h
      simp_all [kindByte]
    · cases h

theorem boolOperand_none (b : Byte) (h : 1 < b.toNat) : boolOperand b = none := by
  have h0 : b ≠ 0 := by rintro rfl; simp at h
  have h1 : b ≠ 1 := by rintro rfl; simp at h
  rw [boolOperand, if_neg h0, if_neg h1]

theorem kindOperand_none (b : Byte) (h : 1 < b.toNat) : kindOperand b = none := by
  have h0 : b ≠ 0 := by rintro rfl; simp at h
  have h1 : b ≠ 1 := by rintro rfl; simp at h
  rw [kindOperand, if_neg h0, if_neg h1]

@[simp] theorem joinBytes_hi_lo (v : Word) : joinBytes (hiByte v) (loByte v) = v := by
  simp only [joinBytes, hiByte, loByte]
  ext i hi
  simp only [BitVec.getElem_append, BitVec.getElem_extractLsb']
  split
  · simp [BitVec.getLsbD_eq_getElem hi]
  · rename_i h
    rw [Nat.add_sub_cancel' (by omega : 8 ≤ i), BitVec.getLsbD_eq_getElem hi]

@[simp] theorem hiByte_joinBytes (a b : Byte) : hiByte (joinBytes a b) = a := by
  simp only [joinBytes, hiByte]
  ext i hi
  simp only [BitVec.getElem_extractLsb', BitVec.getLsbD_append]
  simp [BitVec.getLsbD_eq_getElem hi]

@[simp] theorem loByte_joinBytes (a b : Byte) : loByte (joinBytes a b) = b := by
  simp only [joinBytes, loByte]
  ext i hi
  simp only [BitVec.getElem_extractLsb', BitVec.getLsbD_append]
  simp [hi]

theorem joinBytes_toNat (a b : Byte) : (joinBytes a b).toNat = 256 * a.toNat + b.toNat := by
  simp only [joinBytes, BitVec.toNat_append]
  rw [← Nat.shiftLeft_add_eq_or_of_lt b.isLt, Nat.shiftLeft_eq]
  omega

theorem orOutOfDomain_eq_ok {α : Type} (o : Opcode) (v : Option α) (mk : α → Instr) (i : Instr)
    (h : orOutOfDomain o v mk = .ok i) : ∃ x, v = some x ∧ mk x = i := by
  cases v with
  | none => cases h
  | some x => exact ⟨x, rfl, by simpa [orOutOfDomain] using h⟩

theorem readF0_eq_ok (o : Opcode) (bytes : List Byte) (f : Except DecodeError Instr) (i : Instr)
    (h : readF0 o bytes f = .ok i) : bytes = [] ∧ f = .ok i := by
  cases bytes with
  | nil => exact ⟨rfl, h⟩
  | cons a l => cases h

theorem readF1_eq_ok (o : Opcode) (bytes : List Byte) (f : Byte → Except DecodeError Instr) (i : Instr)
    (h : readF1 o bytes f = .ok i) : ∃ a, bytes = [a] ∧ f a = .ok i := by
  cases bytes with
  | nil => cases h
  | cons a l =>
    obtain ⟨rfl, hf⟩ := readF0_eq_ok o l (f a) i h
    exact ⟨a, rfl, hf⟩

theorem readF2_eq_ok (o : Opcode) (bytes : List Byte) (f : Byte → Byte → Except DecodeError Instr) (i : Instr)
    (h : readF2 o bytes f = .ok i) : ∃ a b, bytes = [a, b] ∧ f a b = .ok i := by
  cases bytes with
  | nil => cases h
  | cons a l =>
    obtain ⟨b, rfl, hf⟩ := readF1_eq_ok o l (f a) i h
    exact ⟨a, b, rfl, hf⟩

theorem readF4_eq_ok (o : Opcode) (bytes : List Byte) (f : Byte → Byte → Byte → Byte → Except DecodeError Instr)
    (i : Instr) (h : readF4 o bytes f = .ok i) : ∃ a b c d, bytes = [a, b, c, d] ∧ f a b c d = .ok i := by
  match bytes, h with
  | a :: b :: l, h =>
    obtain ⟨c, d, rfl, hf⟩ := readF2_eq_ok o l (f a b) i h
    exact ⟨a, b, c, d, rfl, hf⟩

theorem readFV_eq_ok (o : Opcode) (bytes : List Byte) (f : List Byte → Except DecodeError Instr) (i : Instr)
    (h : readFV o bytes f = .ok i) : ∃ n data, bytes = n :: data ∧ data.length = n.toNat ∧ f data = .ok i := by
  cases bytes with
  | nil => cases h
  | cons n data =>
    simp only [readFV] at h
    split at h
    · exact ⟨n, data, rfl, by assumption, h⟩
    · cases h

/-- The decoder's two domain checks are those of a well-formed operation. -/
theorem operandsInDomain_of_wf (c : Config) (i : Instr) (h : i.wf c = true) : operandsInDomain c i = true := by
  cases i <;> simp only [Instr.wf, channelWf, sampleWf, operandsInDomain, decide_eq_true_eq] at h ⊢ <;> omega

end Sys2Proof
end

