-- ==== Sys2Proof/Laws/Sensor.lean ====
section
/-!
SUPPORT. The operation in progress: what a micro-step does, what follows a stage, and what neither of them touches.
-/

namespace Sys2Proof.Machine

/-- What `finishMeasure` leaves: the phase, no operation in progress, the response. -/
theorem finishMeasure_eq (phase : Phase) (st : Status) (payload : List Byte) (s : State) :
    finishMeasure phase st payload s = { s with
      sensor := { s.sensor with phase := phase, running := none }
      mainResponse := responseBytes st payload } := rfl

/-- What `enterStage` leaves: the first micro-steps of the stage. -/
theorem enterStage_eq (m : Measure) (stage : Stage) (s : State) :
    enterStage m stage s = { s with
      sensor := { s.sensor with running := some (stageStart s.cfg s.sensor.kind m.checked stage) } } := rfl

/-- What follows a stage touches SensorDriver's registers and the MAIN response, nothing else. -/
theorem endStage_frame (m : Measure) (s : State) :
    endStage m s = { s with sensor := (endStage m s).sensor, mainResponse := (endStage m s).mainResponse } := by
  unfold endStage
  split <;> split <;> rfl

/-- A micro-step touches the bus, SensorDriver's registers and the MAIN response, nothing else. -/
theorem advance_frame (s : State) :
    advance s = { s with
      bus := (advance s).bus, sensor := (advance s).sensor, mainResponse := (advance s).mainResponse } := by
  unfold advance
  split
  · rfl
  · split
    · rw [endStage_frame]
    · dsimp only
      split
      · rw [endStage_frame]; rfl
      · rfl

@[simp] theorem advance_cfg (s : State) : (advance s).cfg = s.cfg := by rw [advance_frame]
@[simp] theorem advance_channels (s : State) : (advance s).channels = s.channels := by rw [advance_frame]
@[simp] theorem advance_thermal (s : State) : (advance s).thermal = s.thermal := by rw [advance_frame]
@[simp] theorem advance_duty (s : State) : (advance s).duty = s.duty := by rw [advance_frame]
@[simp] theorem advance_inputs (s : State) : (advance s).inputs = s.inputs := by rw [advance_frame]
@[simp] theorem advance_tickResponse (s : State) : (advance s).tickResponse = s.tickResponse := by rw [advance_frame]

@[simp] theorem endStage_cfg (m : Measure) (s : State) : (endStage m s).cfg = s.cfg := by rw [endStage_frame]
@[simp] theorem endStage_bus (m : Measure) (s : State) : (endStage m s).bus = s.bus := by rw [endStage_frame]
@[simp] theorem endStage_duty (m : Measure) (s : State) : (endStage m s).duty = s.duty := by rw [endStage_frame]
@[simp] theorem endStage_inputs (m : Measure) (s : State) : (endStage m s).inputs = s.inputs := by rw [endStage_frame]

/-- Without an operation in progress a micro-step does nothing. -/
theorem advance_idle (s : State) (h : s.sensor.running = none) : advance s = s := by
  simp [advance, h]

/-- A micro-step that is not the last of its stage. -/
theorem advance_inside (s : State) (m : Measure) (op op' : BusOp) (rest : List BusOp)
    (h : s.sensor.running = some m) (ht : m.todo = op :: op' :: rest) :
    advance s = { s with
      bus := (busStep op (s.bus, m.got)).1
      sensor := { s.sensor with
        running := some { m with todo := op' :: rest, got := (busStep op (s.bus, m.got)).2 } } } := by
  simp [advance, h, ht, State.withBus, State.withSensor]

/-- The last micro-step of a stage, and what follows the stage. -/
theorem advance_last (s : State) (m : Measure) (op : BusOp)
    (h : s.sensor.running = some m) (ht : m.todo = [op]) :
    advance s = endStage { m with todo := [], got := (busStep op (s.bus, m.got)).2 } { s with
      bus := (busStep op (s.bus, m.got)).1
      sensor := { s.sensor with
        running := some { m with todo := [], got := (busStep op (s.bus, m.got)).2 } } } := by
  simp [advance, h, ht, State.withBus, State.withSensor]

/-- What does not depend on the operation in progress does not see a micro-step: changing the parts the TICK port owns
before it is changing them after it. -/
theorem advance_with (s : State) (ch : List Channel) (th : Thermal) (ins : List Input) (r : List Byte) :
    advance { s with channels := ch, thermal := th, inputs := ins, tickResponse := r } =
      { advance s with channels := ch, thermal := th, inputs := ins, tickResponse := r } := by
  cases h : s.sensor.running with
  | none => rw [advance_idle s h, advance_idle { s with channels := ch, thermal := th, inputs := ins, tickResponse := r } h]
  | some m =>
    match ht : m.todo with
    | [] =>
      simp only [advance, h, ht]
      unfold endStage
      cases m.stage <;> dsimp only <;> split <;> rfl
    | op :: op' :: rest =>
      rw [advance_inside s m op op' rest h ht,
        advance_inside { s with channels := ch, thermal := th, inputs := ins, tickResponse := r } m op op' rest h ht]
    | [op] =>
      rw [advance_last s m op h ht,
        advance_last { s with channels := ch, thermal := th, inputs := ins, tickResponse := r } m op h ht]
      unfold endStage
      cases m.stage <;> dsimp only <;> split <;> rfl

/-- All the micro-steps of a stage but the last: so many micro-steps are that many bus actions. -/
theorem advance_iterate (p : List BusOp) (op : BusOp) (rest : List BusOp) (s : State) (m : Measure)
    (h : s.sensor.running = some m) (ht : m.todo = p ++ op :: rest) :
    advance^[p.length] s = { s with
      bus := (runFrom p (s.bus, m.got)).1
      sensor := { s.sensor with
        running := some { m with todo := op :: rest, got := (runFrom p (s.bus, m.got)).2 } } } := by
  induction p generalizing s m with
  | nil =>
    rw [List.nil_append] at ht
    simp only [List.length_nil, Function.iterate_zero, id_eq, runFrom_nil]
    rw [← ht, ← h]
  | cons a p ih =>
    obtain ⟨b, tl, htl⟩ : ∃ b tl, p ++ op :: rest = b :: tl := by cases p <;> simp
    have ht' : m.todo = a :: b :: tl := by rw [ht, List.cons_append, htl]
    rw [List.length_cons, Function.iterate_succ_apply, advance_inside s m a b tl h ht']
    rw [ih _ { m with todo := b :: tl, got := (busStep a (s.bus, m.got)).2 } rfl htl.symm]
    rfl

/-- A whole stage: as many micro-steps as it has actions, then what follows it. -/
theorem advance_stage (p : List BusOp) (s : State) (m : Measure) (hp : p ≠ [])
    (h : s.sensor.running = some m) (ht : m.todo = p) :
    advance^[p.length] s = endStage { m with todo := [], got := (runFrom p (s.bus, m.got)).2 } { s with
      bus := (runFrom p (s.bus, m.got)).1
      sensor := { s.sensor with
        running := some { m with todo := [], got := (runFrom p (s.bus, m.got)).2 } } } := by
  obtain ⟨q, op, rfl⟩ : ∃ q op, p = q ++ [op] := ⟨p.dropLast, p.getLast hp, (List.dropLast_append_getLast hp).symm⟩
  rw [List.length_append, List.length_singleton, Function.iterate_succ_apply', advance_iterate q op [] s m h ht]
  rw [advance_last _ { m with todo := [op], got := (runFrom q (s.bus, m.got)).2 } op rfl rfl]
  simp only [runFrom_append]
  rfl

end Sys2Proof.Machine
end

