-- ==== Sys2Proof/Laws/Requests.lean ====
section
/-!
SUPPORT. What serving a request and taking a step can do, said once: the operations of the two ports and what they leave alone,
the cases of a step, and runs without inputs.
-/

namespace Sys2Proof.Machine

/-- The TICK port's operations give a next state and write the channels, the window and the TICK response only (R41). -/
theorem exec_tick (i : Instr) (s : State) (h : i.port = .tick) :
    ∃ ch th r, exec i s = .next { s with channels := ch, thermal := th, tickResponse := r } := by
  cases i <;> first
    | (exfalso; revert h; simp [Instr.port, Instr.opcode, Opcode.port]; done)
    | exact ⟨_, _, _, rfl⟩

/-- The MAIN port's operations give a next state and write the bus, SensorDriver, the duty and the MAIN response only (R41). -/
theorem exec_main (i : Instr) (s : State) (h : i.port = .main) :
    ∃ b d v r, exec i s = .next { s with bus := b, sensor := d, duty := v, mainResponse := r } := by
  cases i with
  | debounceTick ch x => exact absurd h (by simp [Instr.port, Instr.opcode, Opcode.port])
  | thermalSample v => exact absurd h (by simp [Instr.port, Instr.opcode, Opcode.port])
  | startMeasurement k =>
    simp only [exec, execStartMeasurement]
    split
    · split <;> exact ⟨_, _, _, _, rfl⟩
    · exact ⟨_, _, _, _, rfl⟩
  | pollDone =>
    simp only [exec, execPollDone]
    split
    · split <;> exact ⟨_, _, _, _, rfl⟩
    · exact ⟨_, _, _, _, rfl⟩
  | readResult => simp only [exec, execReadResult]; split <;> exact ⟨_, _, _, _, rfl⟩
  | verifyCrc k hi lo cs => simp only [exec, execVerifyCrc]; split <;> exact ⟨_, _, _, _, rfl⟩
  | measure k => simp only [exec, execMeasure, acceptMeasure]; split <;> exact ⟨_, _, _, _, rfl⟩
  | measureAndCheck k => simp only [exec, execMeasureAndCheck, acceptMeasure]; split <;> exact ⟨_, _, _, _, rfl⟩
  | _ => exact ⟨_, _, _, _, rfl⟩

/-- What serving a request can do (R218): an error byte, or the operation on the port that accepts it. -/
theorem serve_cases (p : Port) (bytes : List Byte) (s : State) :
    (∃ e, decodeRequest s.cfg bytes = .error e ∧ serve p bytes s = .next (s.answerError p .illegal)) ∨
    (∃ i, decodeRequest s.cfg bytes = .ok i ∧ i.port ≠ p ∧ serve p bytes s = .next (s.answerError p .refused)) ∨
    (∃ i, decodeRequest s.cfg bytes = .ok i ∧ i.port = p ∧ serve p bytes s = exec i s) := by
  cases h : decodeRequest s.cfg bytes with
  | error e => exact .inl ⟨e, rfl, by simp [serve, h]⟩
  | ok i =>
    by_cases hp : i.port = p
    · exact .inr (.inr ⟨i, rfl, hp, by simp [serve, h, hp]⟩)
    · exact .inr (.inl ⟨i, rfl, hp, by simp [serve, h, hp]⟩)

/-- Serving on the TICK port writes what that port owns only. -/
theorem serve_tick (bytes : List Byte) (s : State) :
    ∃ ch th r, serve .tick bytes s = .next { s with channels := ch, thermal := th, tickResponse := r } := by
  obtain ⟨e, _, h⟩ | ⟨i, _, _, h⟩ | ⟨i, _, hp, h⟩ := serve_cases .tick bytes s
  · exact ⟨_, _, _, h⟩
  · exact ⟨_, _, _, h⟩
  · obtain ⟨ch, th, r, he⟩ := exec_tick i s hp
    exact ⟨ch, th, r, h.trans he⟩

/-- Serving on the MAIN port writes what that port owns only. -/
theorem serve_main (bytes : List Byte) (s : State) :
    ∃ b d v r, serve .main bytes s = .next { s with bus := b, sensor := d, duty := v, mainResponse := r } := by
  obtain ⟨e, _, h⟩ | ⟨i, _, _, h⟩ | ⟨i, _, hp, h⟩ := serve_cases .main bytes s
  · exact ⟨_, _, _, _, h⟩
  · exact ⟨_, _, _, _, h⟩
  · obtain ⟨b, d, v, r, he⟩ := exec_main i s hp
    exact ⟨b, d, v, r, h.trans he⟩

/-- What a step can do (R58, R60): a reset event, a micro-step, or a request served on one of the two ports. -/
theorem step_cases (s : State) :
    (∃ rest, s.inputs = .reset :: rest ∧ step s = .next (s.withInputs rest).blockReset) ∨
    (∃ rest, (s.inputs = .proceed :: rest ∨ s.inputs = rest ∧ (rest = [] ∨ s.sensor.running.isSome)) ∧
      step s = .next (advance (s.withInputs rest))) ∨
    (∃ bytes rest, s.inputs = .request .tick bytes :: rest ∧ step s = serve .tick bytes (s.withInputs rest)) ∨
    (∃ bytes rest, s.inputs = .request .main bytes :: rest ∧ s.sensor.running = none ∧
      step s = serve .main bytes (s.withInputs rest)) := by
  unfold step serveNext
  split
  next h => exact .inr (.inl ⟨[], .inr ⟨h, .inl rfl⟩, by rw [← h]; rfl⟩)
  next rest h => exact .inl ⟨rest, h, rfl⟩
  next rest h => exact .inr (.inl ⟨rest, .inl h, rfl⟩)
  next bytes rest h => exact .inr (.inr (.inl ⟨bytes, rest, h, rfl⟩))
  next bytes rest h =>
    by_cases hr : s.sensor.running.isSome
    · exact .inr (.inl ⟨_, .inr ⟨rfl, .inr hr⟩, by rw [if_pos hr]; rfl⟩)
    · exact .inr (.inr (.inr ⟨bytes, rest, h, by simpa using hr, by rw [if_neg hr]⟩))

/-- With nothing presented a step is a micro-step. -/
theorem step_idle (s : State) (h : s.inputs = []) : step s = .next (advance s) := by
  simp [step, serveNext, h]

/-- One more step of a run whose first step has a next state. -/
theorem run_succ (n : Nat) (s t : State) (h : step s = .next t) : core.run (n + 1) s = core.run n t := by
  have h' : core.step s = .next t := h
  simp [Host.Core.run, h']

/-- With nothing presented a run is so many micro-steps. -/
theorem run_idle (n : Nat) (s : State) (h : s.inputs = []) : core.run n s = .next (advance^[n] s) := by
  induction n generalizing s with
  | zero => rfl
  | succ n ih => rw [run_succ n s _ (step_idle s h), ih _ (by simpa using h), Function.iterate_succ_apply]

/-- What serving on the TICK port does depends only on what that port owns and on the configuration (R41, R62). -/
theorem serve_tick_local (bytes : List Byte) (s t : State) (h : SameTick s t) :
    ∃ ch th r, serve .tick bytes s = .next { s with channels := ch, thermal := th, tickResponse := r } ∧
      serve .tick bytes t = .next { t with channels := ch, thermal := th, tickResponse := r } := by
  obtain ⟨h1, h2, h3, _⟩ := h
  simp only [serve, h1]
  cases decodeRequest s.cfg bytes with
  | error e => exact ⟨_, _, _, rfl, by rw [← h2, ← h3]; simp only [← h1]; rfl⟩
  | ok i =>
    dsimp only
    split
    · rename_i hp
      cases i <;> first
        | (exfalso; revert hp; simp [Instr.port, Instr.opcode, Opcode.port]; done)
        | skip
      case debounceTick ch x =>
        exact ⟨_, _, _, rfl, by
          simp only [exec, execDebounceTick, State.channel, State.withChannel, State.answer, h1, h2, h3]⟩
      case thermalSample v =>
        exact ⟨_, _, _, rfl, by simp only [exec, execThermalSample, State.withThermal, State.answer, h1, h2, h3]⟩
    · exact ⟨_, _, _, rfl, by rw [← h2, ← h3]; simp only [← h1]; rfl⟩

/-- A micro-step does not see what the TICK port owns. -/
theorem advance_sameMain (s t : State) (h : SameMain s t) : SameMain (advance s) (advance t) := by
  obtain ⟨h1, h2, h3, h4, h5⟩ := h
  have ht : t = { s with
      channels := t.channels, thermal := t.thermal, inputs := t.inputs, tickResponse := t.tickResponse } := by
    obtain ⟨_⟩ := t
    simp_all
  have h' := advance_with s t.channels t.thermal t.inputs t.tickResponse
  rw [← ht] at h'
  rw [h']
  exact ⟨rfl, rfl, rfl, rfl, rfl⟩

/-- Whether a request decodes says that its operands are in the domains that the configuration fixes (R75). -/
theorem operandsInDomain_of_decodeRequest (c : Config) (bytes : List Byte) (i : Instr)
    (h : decodeRequest c bytes = .ok i) : operandsInDomain c i = true := by
  simp only [decodeRequest] at h
  split at h
  · cases h
  · split at h
    · cases h
      assumption
    · cases h

end Sys2Proof.Machine
end

