-- ==== Sys2Proof/Laws/Measure.lean ====
section
/-!
SUPPORT. The stages of a MEASURE or MEASURE_AND_CHECK, each as one lemma: how many micro-steps it takes and the state that
follows it. `inStage` is a state at the start of a stage, `afterPolls` what the poll loop's outcome leads to.
-/

namespace Sys2Proof.Machine

/-- The state with an operation at the start of a stage. -/
def inStage (s : State) (checked : Bool) (stage : Stage) (b : Bus) (phase : Phase) (poll : Nat) : State :=
  { s with
    bus := b
    sensor := {
      phase := phase
      kind := s.sensor.kind
      poll := poll
      running := some (stageStart s.cfg s.sensor.kind checked stage) } }

/-- What follows the poll loop of R140, given the bus after it, the checks made and whether the peer was ready. -/
def afterPolls (checked : Bool) (s : State) (polls : Bus × Nat × Bool) : State :=
  if polls.2.2 then
    let result := polls.1.run (resultProgram s.cfg)
    let s1 := (s.withBus result.1).withSensor
      { phase := .done, kind := s.sensor.kind, poll := polls.2.1, running := none }
    let hi := resultHi result.2
    let lo := resultLo result.2
    if checked && !checksumMatches s.cfg s.sensor.kind hi lo (resultCs result.2) then s1.answerError .main .checksum
    else s1.answer .main .ok [hi, lo]
  else
    ((s.withBus polls.1).withSensor
      { phase := .idle, kind := s.sensor.kind, poll := polls.2.1, running := none }).answerError .main .timeout

/-- All the micro-steps of a stage, from its start. -/
theorem inStage_all (s : State) (checked : Bool) (stage : Stage) (b : Bus) (phase : Phase) (poll : Nat)
    (p : List BusOp) (hp : (stageStart s.cfg s.sensor.kind checked stage).todo = p) (hne : p ≠ []) :
    advance^[p.length] (inStage s checked stage b phase poll) =
      endStage ⟨checked, stage, [], (b.run p).2⟩ { s with
        bus := (b.run p).1
        sensor := ⟨phase, s.sensor.kind, poll, some ⟨checked, stage, [], (b.run p).2⟩⟩ } :=
  advance_stage p (inStage s checked stage b phase poll) (stageStart s.cfg s.sensor.kind checked stage) hne rfl hp

/-- What the first check of MEASURE and MEASURE_AND_CHECK does: it refuses, or puts the operation at its first stage. -/
theorem acceptMeasure_eq (checked : Bool) (kind : Kind) (s : State) :
    acceptMeasure checked kind s =
      if acceptsStart s.sensor.phase then
        inStage { s with sensor := { s.sensor with kind := kind }, mainResponse := [] } checked .command s.bus
          s.sensor.phase s.sensor.poll
      else s.answerError .main .refused := by
  unfold acceptMeasure
  split <;> rfl

@[simp] theorem acceptMeasure_inputs (checked : Bool) (kind : Kind) (s : State) :
    (acceptMeasure checked kind s).inputs = s.inputs := by
  unfold acceptMeasure
  split <;> rfl

/-- The command stage: 60 micro-steps. -/
theorem command_stage (s : State) (checked : Bool) (b : Bus) (phase : Phase) (poll : Nat) :
    advance^[60] (inStage s checked .command b phase poll) =
      if nackOf (b.run (commandProgram s.cfg s.sensor.kind)).2 then
        ((s.withBus (b.run (commandProgram s.cfg s.sensor.kind)).1).withSensor
          { phase := .idle, kind := s.sensor.kind, poll := poll, running := none }).answerError .main .busNack
      else inStage s checked .check (b.run (commandProgram s.cfg s.sensor.kind)).1 .started 0 := by
  have h := inStage_all s checked .command b phase poll (commandProgram s.cfg s.sensor.kind) rfl
    (List.ne_nil_of_length_pos (by simp))
  rw [commandProgram_length] at h
  rw [h]
  generalize b.run (commandProgram s.cfg s.sensor.kind) = r
  simp only [endStage]
  split <;> rfl

/-- A ready check that finds the peer ready: one micro-step. -/
theorem check_ready (s : State) (checked : Bool) (b : Bus) (phase : Phase) (poll : Nat)
    (h : readyOf (b.run [.sample]).2 = true) :
    advance (inStage s checked .check b phase poll) =
      inStage s checked .read (b.run [.sample]).1 .read (poll + 1) := by
  refine (inStage_all s checked .check b phase poll [.sample] rfl (by simp)).trans ?_
  revert h
  generalize b.run [.sample] = r
  intro h
  simp only [endStage, h, if_true]
  rfl

/-- A ready check that does not: one micro-step. -/
theorem check_not_ready (s : State) (checked : Bool) (b : Bus) (phase : Phase) (poll : Nat)
    (h : readyOf (b.run [.sample]).2 = false) :
    advance (inStage s checked .check b phase poll) =
      inStage s checked .pause (b.run [.sample]).1 .polling (poll + 1) := by
  refine (inStage_all s checked .check b phase poll [.sample] rfl (by simp)).trans ?_
  revert h
  generalize b.run [.sample] = r
  intro h
  simp only [endStage, h]
  rfl

/-- The wait after a failed check, when checks are left: one micro-step. -/
theorem pause_again (s : State) (checked : Bool) (b : Bus) (phase : Phase) (poll : Nat) (h : poll ≠ s.cfg.pollMax) :
    advance (inStage s checked .pause b phase poll) =
      inStage s checked .check (b.run [.wait s.cfg.pollIntervalUs]).1 phase poll := by
  refine (inStage_all s checked .pause b phase poll [.wait s.cfg.pollIntervalUs] rfl (by simp)).trans ?_
  simp only [endStage, h, if_false]
  rfl

/-- The wait after the last failed check: TIMEOUT. -/
theorem pause_timeout (s : State) (checked : Bool) (b : Bus) (phase : Phase) :
    advance (inStage s checked .pause b phase s.cfg.pollMax) =
      afterPolls checked s ((b.run [.wait s.cfg.pollIntervalUs]).1, s.cfg.pollMax, false) := by
  refine (inStage_all s checked .pause b phase s.cfg.pollMax [.wait s.cfg.pollIntervalUs] rfl (by simp)).trans ?_
  simp only [endStage, if_true]
  rfl

/-- The read stage: 147 micro-steps. -/
theorem read_stage (s : State) (checked : Bool) (b : Bus) (phase : Phase) (poll : Nat) :
    advance^[147] (inStage s checked .read b phase poll) = afterPolls checked s (b, poll, true) := by
  have h := inStage_all s checked .read b phase poll (resultProgram s.cfg) rfl
    (List.ne_nil_of_length_pos (by simp))
  rw [resultProgram_length] at h
  rw [h]
  simp only [afterPolls, if_true]
  generalize b.run (resultProgram s.cfg) = r
  simp only [endStage]
  split <;> rfl

end Sys2Proof.Machine
end

