-- ==== Sys2Proof/Laws/PerInstr.lean ====
section
/-!
SUPPORT. What is said of every operation as syntax, one lemma for each constructor of `Instr`: its request begins with the
opcode byte of its row and has the length its row's format gives (R70, R72, R74).
-/

namespace Sys2Proof.Laws.EncodedForm

/-- The request of a well-formed operation begins with its opcode and is as long as its format says. -/
def Statement (i : Instr) : Prop :=
  ∀ c : Config, i.wf c = true →
    (encode i).head? = some i.opcode.code ∧
    (encode i).length = i.opcode.format.length ((encode i).tail.headD 0)

theorem crc8 (data : List Byte) : Statement (.crc8 data) := by
  intro c h
  simp only [Instr.wf, dataWf, decide_eq_true_eq] at h
  simp only [encode, operandBytes, Instr.opcode, Opcode.format, Format.length, List.head?_cons, List.tail_cons,
    List.headD_cons, List.length_cons, BitVec.toNat_ofNat, true_and]
  omega

theorem busReset : Statement (.busReset) := fun _ _ => ⟨rfl, rfl⟩

theorem busStart : Statement (.busStart) := fun _ _ => ⟨rfl, rfl⟩

theorem busWriteByte (value : Byte) : Statement (.busWriteByte value) := fun _ _ => ⟨rfl, rfl⟩

theorem busReadByte (sendAck : Bool) : Statement (.busReadByte sendAck) := fun _ _ => ⟨rfl, rfl⟩

theorem startMeasurement (kind : Kind) : Statement (.startMeasurement kind) := fun _ _ => ⟨rfl, rfl⟩

theorem pollDone : Statement (.pollDone) := fun _ _ => ⟨rfl, rfl⟩

theorem readResult : Statement (.readResult) := fun _ _ => ⟨rfl, rfl⟩

theorem verifyCrc (kind : Kind) (hi lo cs : Byte) : Statement (.verifyCrc kind hi lo cs) := fun _ _ => ⟨rfl, rfl⟩

theorem measure (kind : Kind) : Statement (.measure kind) := fun _ _ => ⟨rfl, rfl⟩

theorem measureAndCheck (kind : Kind) : Statement (.measureAndCheck kind) := fun _ _ => ⟨rfl, rfl⟩

theorem convert (rawTemp rawHumidity : Word) : Statement (.convert rawTemp rawHumidity) := fun _ _ => ⟨rfl, rfl⟩

theorem toPackedBcd (value : Word) : Statement (.toPackedBcd value) := fun _ _ => ⟨rfl, rfl⟩

theorem debounceTick (ch : Byte) (sample : Bool) : Statement (.debounceTick ch sample) := fun _ _ => ⟨rfl, rfl⟩

theorem readEvent (ch : Byte) : Statement (.readEvent ch) := fun _ _ => ⟨rfl, rfl⟩

theorem thermalSample (newSample : Word) : Statement (.thermalSample newSample) := fun _ _ => ⟨rfl, rfl⟩

theorem isOvertemp : Statement (.isOvertemp) := fun _ _ => ⟨rfl, rfl⟩

theorem setDuty (value : Byte) : Statement (.setDuty value) := fun _ _ => ⟨rfl, rfl⟩

theorem getDuty : Statement (.getDuty) := fun _ _ => ⟨rfl, rfl⟩

end Sys2Proof.Laws.EncodedForm
end

