-- ==== Sys2Proof/Laws/Units.lean ====
section
/-!
SUPPORT. Facts under the statements about CrcChecker, DebounceEngine, ThermalSupervisor and ActuatorGate: the required check
value, the filter, the timer, a sum over a list with one entry replaced, the clamp.
-/

namespace Sys2Proof.Machine

/-- What a configuration guarantees of its table (R104 (b)), said of the operation. -/
theorem crc8_example_ne (c : Config) : crc8 c [0x03, 0x01, 0x90] ≠ 0x00 := c.exampleCheck_ne

theorem Channel.ticks_append (c : Config) (a b : List Bool) (k : Channel) :
    k.ticks c (a ++ b) = (k.ticks c a).ticks c b := by
  simp [Channel.ticks, List.foldl_append]

/-- A channel held for one tick more. -/
theorem Channel.ticks_replicate_succ (c : Config) (n : Nat) (b : Bool) (k : Channel) :
    k.ticks c (List.replicate (n + 1) b) = (k.ticks c (List.replicate n b)).tick c b := by
  rw [List.replicate_succ', Channel.ticks_append]
  rfl

/-- The level after the shift register became `fs`, bit by bit (R172). -/
theorem settledNext_eq (fs : Byte) (st : Bool) :
    settledNext fs st =
      (if fs.getLsbD 2 && fs.getLsbD 1 && fs.getLsbD 0 then true
      else if !fs.getLsbD 2 && !fs.getLsbD 1 && !fs.getLsbD 0 then false
      else st) := by
  revert fs st
  decide +kernel

/-- Three high samples after three low ones: the level rises with the third (R172, R184). -/
theorem settledNext_rises (fs : Byte) (st : Bool) (h : fs.extractLsb' 0 3 = 0) :
    settledNext (shiftIn fs true) st = st ∧ settledNext (shiftIn (shiftIn fs true) true) st = st ∧
      settledNext (shiftIn (shiftIn (shiftIn fs true) true) true) st = true ∧
      (shiftIn (shiftIn (shiftIn fs true) true) true).extractLsb' 0 3 = 7 := by
  revert fs st
  decide +kernel

/-- A high sample after three high ones leaves the level high (R172). -/
theorem settledNext_stays (fs : Byte) (st : Bool) (h : fs.extractLsb' 0 3 = 7) :
    settledNext (shiftIn fs true) st = true ∧ (shiftIn fs true).extractLsb' 0 3 = 7 := by
  revert fs st
  decide +kernel

/-- The timer below its last value counts up. -/
theorem timer_succ (ht : Byte) (h : ht.toNat < 255) : (ht + 1).toNat = ht.toNat + 1 := by
  simp [BitVec.toNat_add]
  omega

/-- One entry of a list replaced: what that does to the sum, and that the entry was part of it (R37, R191). -/
theorem sum_set (l : List Nat) (i v : Nat) (h : i < l.length) :
    (l.set i v).sum = l.sum - l.getD i 0 + v ∧ l.getD i 0 ≤ l.sum := by
  induction l generalizing i with
  | nil => simp at h
  | cons a l ih =>
    cases i with
    | zero => simp; omega
    | succ i =>
      simp only [List.length_cons, Nat.add_lt_add_iff_right] at h
      obtain ⟨h1, h2⟩ := ih i h
      simp only [List.set_cons_succ, List.sum_cons, h1, List.getD_cons_succ]
      omega

/-- The clamp of SET_DUTY in natural numbers (R200). -/
theorem clampDuty_toNat (c : Config) (v : Byte) :
    (clampDuty c v).toNat = if v.toNat < c.period then v.toNat else c.period - 1 := by
  have h1 := c.period_pos
  have h2 := c.period_le
  unfold clampDuty
  split
  · rfl
  · simp
    omega

end Sys2Proof.Machine
end

