-- ==== Sys2Proof/Tests/Slice0.lean ====
section
/-!
SUPPORT. Our own tests. Expected results are the spec's worked examples and vectors (spec/95_test_vectors.md, named in the
docstrings), never the model's own answers. The last part holds, for every obligation that has hypotheses, a concrete witness
that meets them.
-/

namespace Sys2Proof.Tests

-- One theorem at a time: checked all at once, these many small kernel evaluations hold a thread each.
set_option Elab.async false

open Sys2Proof.Machine

/-! Helpers -/

/-- The limits of the spec's small programs P2, P3 and P4, with ten-bit thermal samples (V-TH-5). -/
def smallParameters : Parameters :=
  { Parameters.vectors with
    pollMax := 3, nb := 2, shortPressLimit := 4, longPressFirstPeriod := 3, longPressRepeatPeriod := 2, n := 4
    sampleBits := 10, upperThreshold := 400, lowerThreshold := 360 }

def small : Config := ⟨smallParameters, by decide +kernel⟩

/-- The vectors' configuration with the arithmetic `NUM_F32`. -/
def single : Config := ⟨{ Parameters.vectors with num := .binary32 }, by decide +kernel⟩

/-- The block after reset, in the vectors' configuration, with these answers of the peer settled. -/
def start (peer : List Bool) : State :=
  { State.resetWith Config.vectors with bus := { Bus.reset with peer := peer } }

/-- The same in the small configuration. -/
def startSmall (peer : List Bool) : State :=
  { State.resetWith small with bus := { Bus.reset with peer := peer } }

/-- A request presented on a port. -/
def ask (p : Port) (bytes : List Byte) (s : State) : State := s.withInputs [.request p bytes]

/-- The state after a step, if there is one. -/
def result (o : Host.Outcome State Fault Refusal) : Option State :=
  match o with
  | .next s => some s
  | .fault _ => none
  | .refused _ => none

/-- One value read from the state after a step. -/
def seen {α : Type} (o : Host.Outcome State Fault Refusal) (read : State → α) : Option α := (result o).map read

/-! Well-formedness: each check refuses an ill-formed term -/

theorem test_wf_refuses_long_data : Instr.wf Config.vectors (.crc8 (List.replicate 256 0)) = false := by decide +kernel

theorem test_wf_refuses_absent_channel_tick : Instr.wf Config.vectors (.debounceTick 1 true) = false := by decide

theorem test_wf_refuses_absent_channel_read : Instr.wf small (.readEvent 2) = false := by decide

theorem test_wf_refuses_wide_sample : Instr.wf small (.thermalSample 1024) = false := by decide

/-- U12: each constraint of R6, and R104 (b), refuses a configuration that breaks it and nothing else. -/
theorem test_config_constraints :
    ([{ Parameters.vectors with cmdHumi := 0x03 }, { Parameters.vectors with pollMax := 0 },
      { Parameters.vectors with d1 := -4000 }, { Parameters.vectors with d2 := 1 }, { Parameters.vectors with nb := 0 },
      { Parameters.vectors with nb := 257 }, { Parameters.vectors with shortPressLimit := 0 },
      { Parameters.vectors with shortPressLimit := 256 }, { Parameters.vectors with longPressFirstPeriod := 0 },
      { Parameters.vectors with longPressFirstPeriod := 256 }, { Parameters.vectors with longPressRepeatPeriod := 0 },
      { Parameters.vectors with longPressRepeatPeriod := 256 }] ++
      [{ Parameters.vectors with n := 0 }, { Parameters.vectors with n := 257 },
      { Parameters.vectors with sampleBits := 0 }, { Parameters.vectors with sampleBits := 17 },
      { Parameters.vectors with lowerThreshold := 8320 }, { Parameters.vectors with period := 0 },
      { Parameters.vectors with period := 257 }, { Parameters.vectors with crcTable := Vector.replicate 256 0 }]).all (fun p => !p.valid) = true := by decide +kernel

/-! Decoding: every constructor, from the words of V-ENC-19 and R85 -/

theorem test_decode_crc8 : decodeRequest Config.vectors [0x10, 0x03, 0x03, 0x01, 0x90] = .ok (.crc8 [0x03, 0x01, 0x90]) := by
  decide

theorem test_decode_crc8_empty : decodeRequest Config.vectors [0x10, 0x00] = .ok (.crc8 []) := by decide

theorem test_decode_bus :
    decodeRequest Config.vectors [0x20] = .ok .busReset ∧ decodeRequest Config.vectors [0x21] = .ok .busStart ∧
    decodeRequest Config.vectors [0x22, 0x1E] = .ok (.busWriteByte 0x1E) ∧
    decodeRequest Config.vectors [0x23, 0x00] = .ok (.busReadByte false) := by decide

theorem test_decode_sensor :
    decodeRequest Config.vectors [0x30, 0x01] = .ok (.startMeasurement .humidity) ∧
    decodeRequest Config.vectors [0x31] = .ok .pollDone ∧ decodeRequest Config.vectors [0x32] = .ok .readResult ∧
    decodeRequest Config.vectors [0x33, 0x00, 0x01, 0x90, 0xE0] = .ok (.verifyCrc .temperature 0x01 0x90 0xE0) ∧
    decodeRequest Config.vectors [0x34, 0x01] = .ok (.measure .humidity) ∧
    decodeRequest Config.vectors [0x35, 0x00] = .ok (.measureAndCheck .temperature) := by decide

theorem test_decode_convert :
    decodeRequest Config.vectors [0x40, 0x19, 0x64, 0x05, 0xDC] = .ok (.convert 6500 1500) ∧
    decodeRequest Config.vectors [0x41, 0xFE, 0x98] = .ok (.toPackedBcd (-360)) := by decide

theorem test_decode_debounce :
    decodeRequest Config.vectors [0x50, 0x00, 0x01] = .ok (.debounceTick 0 true) ∧
    decodeRequest Config.vectors [0x51, 0x00] = .ok (.readEvent 0) := by decide

theorem test_decode_thermal_actuator :
    decodeRequest Config.vectors [0x60, 0x02, 0x09] = .ok (.thermalSample 521) ∧
    decodeRequest Config.vectors [0x61] = .ok .isOvertemp ∧ decodeRequest Config.vectors [0x70, 0x96] = .ok (.setDuty 150) ∧
    decodeRequest Config.vectors [0x71] = .ok .getDuty := by decide

theorem test_encode :
    encode (.crc8 [0x03, 0x01, 0x90]) = [0x10, 0x03, 0x03, 0x01, 0x90] ∧
    encode (.measureAndCheck .temperature) = [0x35, 0x00] ∧ encode (.debounceTick 0 true) = [0x50, 0x00, 0x01] ∧
    encode (.toPackedBcd (-360)) = [0x41, 0xFE, 0x98] ∧ encode (.thermalSample 521) = [0x60, 0x02, 0x09] := by decide

/-- V-ENC-1 to V-ENC-11, V-ENC-17, V-ENC-18, V-BUS-7, V-SD-22, V-DB-8: requests that do not decode, each by name. -/
theorem test_decode_refuses :
    decodeRequest Config.vectors [] = .error .empty ∧
    decodeRequest Config.vectors [0x00] = .error (.reservedOpcode 0x00) ∧
    decodeRequest Config.vectors [0x72] = .error (.reservedOpcode 0x72) ∧
    decodeRequest Config.vectors [0x35] = .error (.wrongLength 0x35) ∧
    decodeRequest Config.vectors [0x35, 0x00, 0x00] = .error (.wrongLength 0x35) ∧
    decodeRequest Config.vectors [0x35, 0x02] = .error (.operandOutOfDomain 0x35) ∧
    decodeRequest Config.vectors [0x10, 0x03, 0x01, 0x90] = .error (.wrongLength 0x10) ∧
    decodeRequest Config.vectors [0x10, 0x01, 0xAA, 0xBB] = .error (.wrongLength 0x10) ∧
    decodeRequest Config.vectors [0x40, 0x00, 0x00, 0x00] = .error (.wrongLength 0x40) ∧
    decodeRequest Config.vectors [0x20, 0x00] = .error (.wrongLength 0x20) ∧
    decodeRequest Config.vectors [0x23, 0x02] = .error (.operandOutOfDomain 0x23) ∧
    decodeRequest Config.vectors [0x50, 0x01, 0x01] = .error (.operandOutOfDomain 0x50) ∧
    decodeRequest small [0x60, 0x04, 0x00] = .error (.operandOutOfDomain 0x60) := by decide

/-- The rows of spec/opcode_table.json, eight bits each, the operands 0. -/
theorem test_decode_table :
    [0x10, 0x20, 0x21, 0x22, 0x23, 0x30, 0x31, 0x32, 0x33, 0x34, 0x35, 0x40, 0x41, 0x50, 0x51, 0x60, 0x61, 0x70, 0x71].map
        (decodeTableWord 8) =
      [some (.crc8 []), some .busReset, some .busStart, some (.busWriteByte 0), some (.busReadByte false),
        some (.startMeasurement .temperature), some .pollDone, some .readResult, some (.verifyCrc .temperature 0 0 0),
        some (.measure .temperature)] ++
      [some (.measureAndCheck .temperature), some (.convert 0 0), some (.toPackedBcd 0), some (.debounceTick 0 false),
        some (.readEvent 0), some (.thermalSample 0), some .isOvertemp, some (.setDuty 0), some .getDuty] := by
  decide

/-- V-RST-1: after reset, in a configuration of which nothing is known, the first request of every row has a next state. -/
theorem test_steps_from_reset :
    [0x10, 0x20, 0x21, 0x22, 0x23, 0x30, 0x31, 0x32, 0x33, 0x34, 0x35, 0x40, 0x41, 0x50, 0x51, 0x60, 0x61, 0x70, 0x71].map
        (fun w => (result (step (State.reset.withFetchWord 8 w))).isSome) = List.replicate 19 true := by
  rfl

theorem test_reads_from_reset :
    seen (step (State.reset.withFetchWord 8 0x61)) State.mainResponse = some [0x00, 0x00] ∧
    seen (step (State.reset.withFetchWord 8 0x71)) State.mainResponse = some [0x00, 0x00] ∧
    seen (step (State.reset.withFetchWord 8 0x31)) State.mainResponse = some [0xFE] ∧
    seen (step (State.reset.withFetchWord 8 0x32)) State.mainResponse = some [0xFE] := ⟨rfl, rfl, rfl, rfl⟩

/-! CrcChecker -/

/-- R105: every entry of `CRC_TABLE_GK` by the rule's recipe. -/
theorem test_table_gk : crcTableGKRows = (List.range 256).map (fun i => crcTableEntry 0x31 (BitVec.ofNat 8 i)) := by decide +kernel

/-- V-CRC-2g, V-CRC-2i. -/
theorem test_crc8 :
    seen (step (ask .main [0x10, 0x03, 0x03, 0x01, 0x90] (start []))) State.mainResponse = some [0x00, 0xE0] ∧
    seen (step (ask .main [0x10, 0x03, 0x03, 0x81, 0x90] (start []))) State.mainResponse = some [0x00, 0x24] := by
  decide +kernel

/-- V-CRC-4. -/
theorem test_rev8 : [0x00, 0x01, 0x02, 0x07, 0x80, 0xA5, 0xF0, 0xFF, 0x53].map rev8 =
    [0x00, 0x80, 0x40, 0xE0, 0x01, 0xA5, 0x0F, 0xFF, 0xCA] := by decide

/-! BitbangProtocol -/

/-- V-BUS-1. -/
theorem test_bus_start : seen (step (ask .main [0x21] (start []))) (fun s => s.bus.trace) =
    some [.d true, .c false, .w 1, .c true, .w 1, .d false, .w 1, .c false, .w 1, .c true, .w 1, .d true, .w 1,
      .c false] := by decide +kernel

/-- V-BUS-2, V-SD-17: nine rising edges, then the start waveform; 51 actions; from `Polling` to `Idle`. -/
theorem test_bus_reset : seen (step (ask .main [0x20] ((start []).withPhase .polling)))
      (fun s => (s.bus.trace.length, s.bus.trace.count (.c true), s.bus.trace.take 5, s.sensor.phase)) =
    some (51, 11, [.d true, .c false, .w 1, .c true, .w 1], .idle) := by decide +kernel

/-- V-BUS-3, acknowledged. -/
theorem test_bus_write_byte : seen (step (ask .main [0x22, 0x03] (start [false])))
      (fun s => (s.mainResponse, s.bus.trace.length, s.bus.trace.count (.d false), s.bus.trace.drop 40)) =
    some ([0x00, 0x00], 46, 6, [.d true, .w 1, .c true, .s false, .w 5, .c false]) := by decide +kernel

/-- V-BUS-4, acknowledging; V-BUS-5, not. -/
theorem test_bus_read_byte :
    seen (step (ask .main [0x23, 0x01] (start (bitsOfByte 0x90)))) (fun s => (s.mainResponse, s.bus.trace.drop 42)) =
      some ([0x00, 0x90], [.d false, .w 1, .c true, .w 5, .c false, .w 1, .d true]) ∧
    seen (step (ask .main [0x23, 0x00] (start (bitsOfByte 0xE0)))) (fun s => (s.mainResponse, s.bus.trace.drop 42)) =
      some ([0x00, 0xE0], [.d true, .w 1, .c true, .w 5, .c false, .w 1, .d true]) := by decide +kernel

/-! SensorDriver -/

/-- V-SD-9; V-SD-13. -/
theorem test_start_measurement :
    seen (step (ask .main [0x30, 0x00] (start [false]))) (fun s => (s.mainResponse, s.bus.trace.length, s.sensor.phase)) =
      some ([0x00], 60, .started) ∧
    seen (step (ask .main [0x30, 0x00] ((start []).withPhase .started)))
      (fun s => (s.mainResponse, s.bus.trace, s.sensor.phase)) = some ([0xFE], [], .started) := by decide +kernel

/-- V-SD-10, V-SD-11. -/
theorem test_poll_done :
    seen (step (ask .main [0x31] ((start [true]).withPhase .started)))
      (fun s => (s.mainResponse, s.bus.trace, s.sensor.phase)) = some ([0x00, 0x00], [.s true], .polling) ∧
    seen (step (ask .main [0x31] ((start [false]).withPhase .polling)))
      (fun s => (s.mainResponse, s.bus.trace, s.sensor.phase)) = some ([0x00, 0x01], [.s false], .read) := by
  decide +kernel

/-- V-SD-12; V-SD-15. -/
theorem test_read_result :
    seen (step (ask .main [0x32] ((start (resultBits 0x01 0x90 0xE0)).withPhase .read)))
      (fun s => (s.mainResponse, s.bus.trace.length, s.sensor.phase)) = some ([0x00, 0x01, 0x90, 0xE0], 147, .done) ∧
    seen (step (ask .main [0x32] ((start []).withPhase .polling))) State.mainResponse = some [0xFE] := by
  decide +kernel

/-- V-SD-18, V-SD-20. -/
theorem test_verify_crc :
    seen (step (ask .main [0x33, 0x00, 0x01, 0x90, 0xE0] (start []))) State.mainResponse = some [0x00] ∧
    seen (step (ask .main [0x33, 0x01, 0x01, 0x90, 0xE0] (start []))) State.mainResponse = some [0x03] := by
  decide +kernel

/-- V-SD-3, V-SD-6: the pseudocode of MEASURE. -/
theorem test_measure :
    (let s := measureAtOnce false .temperature (start ([false, true, true, false] ++ resultBits 0x01 0x90 0xE0));
      (s.mainResponse, s.bus.draws, s.bus.peer, s.sensor.phase, s.sensor.poll)) =
      ([0x00, 0x01, 0x90], 28, [], .done, 3) ∧
    (let s := measureAtOnce false .temperature (startSmall [false, true, true, true]);
      (s.mainResponse, s.bus.trace.length, s.bus.trace.count (.w 100), s.sensor.phase, s.sensor.poll)) =
      ([0x02], 66, 3, .idle, 3) := by decide +kernel

/-- V-SD-4, V-SD-8: the pseudocode of MEASURE_AND_CHECK. -/
theorem test_measure_and_check :
    (let s := measureAtOnce true .temperature (start ([false, false] ++ resultBits 0x01 0x90 0x00));
      (s.mainResponse, s.sensor.phase, s.sensor.poll)) = ([0x03], .done, 1) ∧
    (let s := measureAtOnce true .humidity ((start ([false, false] ++ resultBits 0x05 0xDC 0x86)).withPhase .done);
      (s.mainResponse, s.sensor.phase, s.sensor.kind)) = ([0x00, 0x05, 0xDC], .done, .humidity) := by decide +kernel

/-- V-ENC-14, V-SD-1: a MEASURE on the TICK port is refused; on the MAIN port it is in progress, without a response yet. -/
theorem test_measure_accepted :
    seen (step (ask .tick [0x34, 0x00] (start []))) (fun s => (s.tickResponse, s.sensor.running)) = some ([0xFE], none) ∧
    seen (step (ask .main [0x35, 0x00] (start []))) (fun s => (s.mainResponse, s.sensor.running.isSome)) =
      some ([], true) := by decide +kernel

/-! UnitConverter -/

/-- V-CV-3, V-CV-15. -/
theorem test_convert :
    seen (step (ask .main [0x40, 0x19, 0x64, 0x05, 0xDC] (start []))) State.mainResponse =
      some [0x00, 0x00, 0xFA, 0x01, 0xF8] ∧
    seen (step (ask .main [0x40, 0x0F, 0x9B, 0x07, 0xD0] (start []))) State.mainResponse =
      some [0x00, 0x00, 0x00, 0x02, 0x67] := by decide +kernel

/-- V-CV-26: 11340, 12 gives 733, 0 and 1348, 3145 gives -265, 822 in `NUM_F32`. -/
theorem test_convert_single :
    (convertTemperature single 11340, convertHumidity single 11340 12) = (733, 0) ∧
    (convertTemperature single 1348, convertHumidity single 1348 3145) = (-265, 822) := by decide +kernel

/-- V-BCD-17, V-BCD-14. -/
theorem test_to_packed_bcd :
    seen (step (ask .main [0x41, 0xFE, 0x98] (start []))) State.mainResponse = some [0x00, 0x83, 0x60] ∧
    seen (step (ask .main [0x41, 0xE0, 0xC0] (start []))) State.mainResponse = some [0x04, 0xF9, 0x99] := by
  decide +kernel

/-! DebounceEngine -/

/-- A state whose channel 0 holds these registers. -/
def withChannel0 (k : Channel) (s : State) : State := s.withChannel 0 k

/-- V-DB-1b: the release test comes before the timer match; V-DB-5, tick 12: no event and no increment on a later release. -/
theorem test_debounce_tick :
    seen (step (ask .tick [0x50, 0x00, 0x00] (withChannel0 ⟨0x1C, true, .armedShortOrHold, 9, .none⟩ (start []))))
      (fun s => (s.tickResponse, s.channels)) = some ([0x00, 0x01], [⟨0x38, false, .idle, 10, .pressed⟩]) ∧
    seen (step (ask .tick [0x50, 0x00, 0x00] (withChannel0 ⟨0xFC, true, .holdRepeat, 1, .none⟩ (startSmall []))))
      (fun s => (s.tickResponse, s.channels.head?)) = some ([0x00, 0x00], some ⟨0xF8, false, .idle, 1, .none⟩) := by
  decide +kernel

/-- V-DB-2, ticks 3, 7 and 10; V-DB-4, tick 9. -/
theorem test_channel_tick :
    Channel.tick small true ⟨0x03, false, .idle, 0, .none⟩ = ⟨0x07, true, .armedShortOrHold, 0, .none⟩ ∧
    Channel.tick small true ⟨0x3F, true, .armedShortOrHold, 3, .none⟩ = ⟨0x7F, true, .hold1, 0, .hold⟩ ∧
    Channel.tick small true ⟨0xFF, true, .hold1, 2, .none⟩ = ⟨0xFF, true, .holdRepeat, 0, .hold⟩ ∧
    Channel.tick small true ⟨0xB4, false, .idle, 0, .none⟩ = ⟨0x69, false, .idle, 0, .none⟩ := by decide +kernel

/-- V-DB-1: READ_EVENT after the sixth tick; V-DB-8: the channel that does not exist. -/
theorem test_read_event :
    seen (step (ask .main [0x51, 0x00] (withChannel0 ⟨0x38, false, .idle, 3, .pressed⟩ (start []))))
      (fun s => (s.mainResponse, s.channels)) = some ([0x00, 0x01], [⟨0x38, false, .idle, 3, .pressed⟩]) ∧
    seen (step (ask .main [0x51, 0x01] (start []))) State.mainResponse = some [0xFF] := by decide +kernel

/-! ThermalSupervisor and ActuatorGate -/

/-- The window of V-TH-1 after call 4. -/
def window4 : Thermal := ⟨[100, 100, 100, 100], 400, 0, false⟩

/-- V-TH-1, call 5 and call 14. -/
theorem test_thermal_sample :
    seen (step (ask .tick [0x60, 0x00, 0x65] ((startSmall []).withThermal window4)))
      (fun s => (s.tickResponse, s.thermal)) = some ([0x00], ⟨[101, 100, 100, 100], 401, 1, true⟩) ∧
    seen (step (ask .tick [0x60, 0x00, 0x59] ((startSmall []).withThermal ⟨[89, 95, 90, 90], 364, 1, true⟩)))
      (fun s => (s.tickResponse, s.thermal)) = some ([0x00], ⟨[89, 89, 90, 90], 358, 2, false⟩) := by decide +kernel

/-- V-TH-1: IS_OVERTEMP after calls 4 and 5. -/
theorem test_is_overtemp :
    seen (step (ask .main [0x61] ((startSmall []).withThermal window4))) State.mainResponse = some [0x00, 0x00] ∧
    seen (step (ask .main [0x61] ((startSmall []).withThermal ⟨[101, 100, 100, 100], 401, 1, true⟩))) State.mainResponse =
      some [0x00, 0x01] := by decide +kernel

/-- V-ACT-4, V-ACT-6. -/
theorem test_set_duty :
    seen (step (ask .main [0x70, 0x64] (start []))) (fun s => (s.mainResponse, s.duty)) = some ([0x00], 99) ∧
    seen (step (ask .main [0x70, 0x32] (((startSmall []).withDuty 99).withThermal ⟨[101, 100, 100, 100], 401, 1, true⟩)))
      (fun s => (s.mainResponse, s.duty)) = some ([0x00], 0) := by decide +kernel

/-- V-ACT-3, V-ACT-12. -/
theorem test_get_duty :
    seen (step (ask .main [0x71] ((start []).withDuty 99))) State.mainResponse = some [0x00, 0x63] ∧
    seen (step (ask .main [0x70] (start []))) State.mainResponse = some [0xFF] := by decide +kernel

/-- V-ENC-12, V-ENC-13, V-ENC-15: ILLEGAL before REFUSED; the wrong port. -/
theorem test_wrong_port :
    seen (step (ask .main [0x50, 0x01, 0x01] (start []))) State.mainResponse = some [0xFF] ∧
    seen (step (ask .main [0x50, 0x00, 0x01] (start []))) State.mainResponse = some [0xFE] ∧
    seen (step (ask .tick [0x61] (start []))) State.tickResponse = some [0xFE] := by decide +kernel

/-- V-RST-2. -/
theorem test_reset_event :
    seen (step ((((startSmall []).withThermal window4).withDuty 50).withInputs [.reset]))
      (fun s => (s.thermal, s.duty)) = some (⟨[0, 0, 0, 0], 0, 0, false⟩, 0) ∧
    seen (step (((startSmall []).withPhase .polling).withInputs [.reset])) (fun s => s.sensor.phase) = some .idle := by
  decide +kernel

/-! Witnesses: for each obligation with hypotheses, concrete values that meet all of them; at the boundaries of each clause -/

/-- Obligations.DecodeInvertsEncode. -/
theorem test_witness_decode_inverts_encode :
    Instr.wf Config.vectors (.crc8 (List.replicate 255 0)) = true ∧ Instr.wf small (.debounceTick 1 true) = true ∧
    Instr.wf small (.readEvent 1) = true ∧ Instr.wf small (.thermalSample 1023) = true ∧
    Instr.wf Config.vectors (.thermalSample 65535) = true := by decide +kernel

/-- Obligations.DecodedRequestIsItsEncoding. -/
theorem test_witness_decoded_request : decodeRequest small [0x60, 0x03, 0xFF] = .ok (.thermalSample 1023) := by decide

/-- Obligations.ReservedOpcodesDoNotDecode: the ends of the eight ranges, and one inside the first two. -/
theorem test_witness_reserved :
    (0x00 : Byte).toNat ≤ 0x0F ∧ (0x0F : Byte).toNat ≤ 0x0F ∧ 0x11 ≤ (0x11 : Byte).toNat ∧ (0x1F : Byte).toNat ≤ 0x1F ∧
    0x24 ≤ (0x24 : Byte).toNat ∧ (0x2F : Byte).toNat ≤ 0x2F ∧ 0x36 ≤ (0x36 : Byte).toNat ∧ (0x3F : Byte).toNat ≤ 0x3F ∧
    0x42 ≤ (0x42 : Byte).toNat ∧ (0x4F : Byte).toNat ≤ 0x4F ∧ 0x52 ≤ (0x52 : Byte).toNat ∧ (0x5F : Byte).toNat ≤ 0x5F ∧
    0x62 ≤ (0x62 : Byte).toNat ∧ (0x6F : Byte).toNat ≤ 0x6F ∧ 0x72 ≤ (0x72 : Byte).toNat ∧ 0x72 ≤ (0xFF : Byte).toNat := by
  decide

/-- Obligations.WrongLengthDoesNotDecode: one byte too few and one too many. -/
theorem test_witness_wrong_length :
    ((0x22 : Byte), 2) ∈ ([(0x20, 1), (0x21, 1), (0x22, 2)] : List (Byte × Nat)) ∧ 1 + ([] : List Byte).length ≠ 2 ∧
    1 + ([0x01, 0x02] : List Byte).length ≠ 2 ∧ ([0xAA, 0xBB] : List Byte).length ≠ (0x01 : Byte).toNat ∧
    ([] : List Byte).length ≠ (0x01 : Byte).toNat := by decide

/-- Obligations.OperandDomainsAreChecked: the least value outside each domain. -/
theorem test_witness_operand_domains :
    1 < (0x02 : Byte).toNat ∧ small.nb ≤ (0x02 : Byte).toNat ∧
    2 ^ small.sampleBits ≤ 256 * (0x04 : Byte).toNat + (0x00 : Byte).toNat ∧
    ([0xAA] : List Byte).length ≠ (0x00 : Byte).toNat := by decide +kernel

/-- Obligations.StepRunsDecodedRequest, on either port; Obligations.RequestOnWrongPortIsRefused, on either port. -/
theorem test_witness_serve :
    ((ask .main [0x71] (start [])).inputs = [.request .main [0x71]] ∧
      decodeRequest (start []).cfg [0x71] = .ok .getDuty ∧ Instr.port .getDuty = .main ∧ (start []).sensor.running = none) ∧
    ((ask .tick [0x50, 0x00, 0x01] (start [])).inputs = [.request .tick [0x50, 0x00, 0x01]] ∧
      decodeRequest (start []).cfg [0x50, 0x00, 0x01] = .ok (.debounceTick 0 true) ∧
      Instr.port (.debounceTick 0 true) = .tick) := by decide +kernel

theorem test_witness_wrong_port :
    (ask .tick [0x71] (start [])).inputs = [.request .tick [0x71]] ∧ Instr.port .getDuty = .main ∧
    (ask .main [0x50, 0x00, 0x01] (start [])).inputs = [.request .main [0x50, 0x00, 0x01]] ∧
    Instr.port (.debounceTick 0 true) = .tick ∧ (start []).sensor.running = none := by decide +kernel

/-- Obligations.UndecodedRequestIsAnsweredFF, on either port. -/
theorem test_witness_undecoded :
    decodeRequest (start []).cfg [0x72] = .error (.reservedOpcode 0x72) ∧
    (ask .tick [0x72] (start [])).inputs = [.request .tick [0x72]] ∧
    (ask .main [0x72] (start [])).inputs = [.request .main [0x72]] ∧ (start []).sensor.running = none := by
  decide +kernel

/-- A MEASURE in progress, its first micro-step still to come. -/
def measuring : State := acceptMeasure true .temperature (start [])

/-- Obligations.MainRequestWaitsForMeasure, both clauses; Obligations.MicroStepIsOneBusAction. -/
theorem test_witness_measure_in_progress :
    (ask .main [0x71] measuring).inputs = [.request .main [0x71]] ∧ measuring.sensor.running.isSome = true ∧
    (start []).inputs = [] ∧ (start []).sensor.running = none ∧
    measuring.sensor.running.map (fun m => m.todo.head?) = some (some (.drive true)) := by decide +kernel

/-- Obligations.ResetEventRestoresResetState. -/
theorem test_witness_reset : (measuring.withInputs [.reset]).inputs = [.reset] := rfl

/-- Obligations.StepKeepsInvariants and Obligations.SumFitsItsWidth, with no operation in progress: a state with the
invariants (it is that of the obligation about reset, for one configuration) and its step. -/
theorem test_witness_inv : State.Inv (start []) ∧ (result (step (start []))).isSome = true := by
  refine ⟨⟨by decide, by decide, ?_, by decide, by decide, by decide, by decide, fun _ => ⟨rfl, rfl⟩, ?_⟩, by decide +kernel⟩
  · intro v hv
    have hv' : v ∈ List.replicate 16 0 := hv
    rw [List.mem_replicate] at hv'
    rw [hv'.2]
    decide
  · intro m hm
    cases hm

/-- Obligations.StepKeepsInvariants and Obligations.MeasureAlwaysEnds, with an operation in progress. -/
theorem test_witness_inv_measuring :
    State.Inv measuring ∧ measuring.inputs = [] ∧ measuring.sensor.running ≠ none ∧
      (result (step measuring)).isSome = true := by
  refine ⟨⟨by decide, by decide, ?_, by decide, by decide, by decide, by decide, ?_, ?_⟩, rfl, ?_, by decide +kernel⟩
  · exact test_witness_inv.1.buffer_fits
  · intro h
    cases h
  · intro m hm
    cases hm
    exact ⟨by decide, List.suffix_rfl, by decide, by decide, rfl⟩
  · intro h
    cases h

/-- Obligations.PortsWriteOnlyWhatTheyOwn, on either port. -/
theorem test_witness_ports :
    (result (exec .isOvertemp (start []))).isSome = true ∧ Instr.port .isOvertemp = .main ∧
    (result (exec (.thermalSample 5) (start []))).isSome = true ∧ Instr.port (.thermalSample 5) = .tick := by
  decide +kernel

/-- Obligations.FlagsChangeOnlyWhereStated: steps that change `settled` and `tripped`, by a request and by a reset event. -/
theorem test_witness_flags :
    seen (step (ask .tick [0x50, 0x00, 0x01] (withChannel0 ⟨0x03, false, .idle, 0, .none⟩ (start []))))
      (fun s => (s.channels[0]?).map Channel.settled) = some (some true) ∧
    seen (step ((withChannel0 ⟨0x07, true, .idle, 0, .none⟩ (start [])).withInputs [.reset]))
      (fun s => (s.channels[0]?).map Channel.settled) = some (some false) ∧
    seen (step (ask .tick [0x60, 0x00, 0x65] ((startSmall []).withThermal window4))) (fun s => s.thermal.tripped) =
      some true ∧
    seen (step (((startSmall []).withThermal ⟨[101, 100, 100, 100], 401, 1, true⟩).withInputs [.reset]))
      (fun s => s.thermal.tripped) = some false := by decide +kernel

/-- Obligations.DutyChangesOnlyInSetDuty: by a request and by a reset event. -/
theorem test_witness_duty :
    seen (step (ask .main [0x70, 0x32] (start []))) State.duty = some 50 ∧
    seen (step (((start []).withDuty 50).withInputs [.reset])) State.duty = some 0 := by decide +kernel

/-- R105's recipe run backwards. -/
def tableIndex (v : Byte) : Nat :=
  ((List.range 8).foldl (fun c _ => if c.getLsbD 0 then ((c ^^^ 0x31) >>> 1) ||| 0x80 else c >>> 1) v).toNat

theorem vector_entry (rows : List Byte) (h : rows.toArray.size = 256) (i : Fin 256) :
    rows[i.val]? = some (⟨rows.toArray, h⟩ : Vector Byte 256)[i] := by
  have hi : i.val < rows.length := by simp only [List.size_toArray] at h; omega
  simp [List.getElem?_eq_getElem hi]

/-- R104 (a), (b): what is required of a table holds of `CRC_TABLE_GK`; its generator is `0x31` (R105). -/
theorem test_table_required :
    Parameters.vectors.TableIsForwardCrc ∧ Parameters.vectors.exampleCheck = 0xE0 := by
  refine ⟨⟨0x31, fun i => Option.some.inj ?_⟩, by decide +kernel⟩
  have h := vector_entry crcTableGKRows (by decide +kernel) i
  have hmap : crcTableGKRows[i.val]? = some (crcTableEntry 0x31 (BitVec.ofNat 8 i)) := by
    rw [test_table_gk, List.getElem?_map]
    simp
  exact h.symm.trans hmap

/-- Obligations.Crc8SeesOneByteChange: `CRC_TABLE_GK` is a bijection (R106). -/
theorem test_witness_bijective : Parameters.TableBijective Config.vectors.toParameters ∧ (0x90 : Byte) ≠ 0x91 := by
  have hmap : crcTableGKRows.map tableIndex = List.range 256 := by decide +kernel
  have h : ∀ i : Fin 256, tableIndex crcTableGK[i] = i.val := by
    intro i
    have hi : (crcTableGKRows.map tableIndex)[i.val]? = some i.val := by rw [hmap]; simp
    rw [List.getElem?_map, Option.map_eq_some_iff] at hi
    obtain ⟨v, hv, hvi⟩ := hi
    exact (congrArg tableIndex (Option.some.inj ((vector_entry crcTableGKRows _ i).symm.trans hv))).trans hvi
  refine ⟨fun i j hij => ?_, by decide⟩
  have hij' : crcTableGK[i] = crcTableGK[j] := hij
  exact Fin.ext (by rw [← h i, ← h j, hij'])

/-- Obligations.EngineOperationsRestTheBus: each clause. -/
theorem test_witness_engine :
    Instr.busStart = .busStart ∧ Instr.busReset = .busReset ∧ (∃ v, Instr.busWriteByte 0xFF = .busWriteByte v) ∧
    ∃ a, Instr.busReadByte true = .busReadByte a := ⟨rfl, rfl, ⟨_, rfl⟩, ⟨_, rfl⟩⟩

/-- Obligations.SampleReadsWiredAnd: the line driven low; the line released, with an answer settled. -/
theorem test_witness_sample :
    ({ (start [true]).bus with dataDrv := false } : Bus).dataDrv = false ∧
    (start [true]).bus.dataDrv = true ∧ (start [true]).bus.peer = true :: [] := ⟨rfl, rfl, rfl⟩

/-- Obligations.StartMeasurementEffect, PollDoneEffect, ReadResultEffect and MeasureIsAcceptedOrRefused: a phase for each
clause. -/
theorem test_witness_phases :
    (start []).sensor.phase = .idle ∧ ((start []).withPhase .done).sensor.phase = .done ∧
    ((start []).withPhase .started).sensor.phase = .started ∧ ((start []).withPhase .polling).sensor.phase = .polling ∧
    ((start []).withPhase .read).sensor.phase = .read := ⟨rfl, rfl, rfl, rfl, rfl⟩

/-- Obligations.MeasureMicroStepsRefinePseudocode. -/
theorem test_witness_no_inputs : (start []).inputs = [] := rfl

/-- Obligations.MeasureAgainstReadyPeer: no failed check, and one less than `POLL_MAX` of them. -/
theorem test_witness_ready_peer :
    (startSmall []).sensor.phase = .idle ∧ (startSmall []).inputs = [] ∧ 0 < small.pollMax ∧ 2 < small.pollMax ∧
    (startSmall ([false, false] ++ resultBits 0x01 0x90 0xE0)).bus.peer =
      [false] ++ List.replicate 0 true ++ [false] ++ resultBits 0x01 0x90 0xE0 ++ [] ∧
    (startSmall ([false, true, true, false] ++ resultBits 0x01 0x90 0xE0)).bus.peer =
      [false] ++ List.replicate 2 true ++ [false] ++ resultBits 0x01 0x90 0xE0 ++ [] := by decide +kernel

/-- Obligations.MeasureWithoutAcknowledge. -/
theorem test_witness_no_acknowledge :
    ((start [true]).withPhase .done).sensor.phase = .done ∧ (start [true]).inputs = [] ∧
    (start [true]).bus.peer = true :: [] ∧ Instr.measure .humidity = .measure .humidity := ⟨rfl, rfl, rfl, rfl⟩

/-- Obligations.MeasureTimesOut. -/
theorem test_witness_timeout :
    (startSmall []).sensor.phase = .idle ∧ (startSmall []).inputs = [] ∧
    (startSmall [false, true, true, true]).bus.peer = [false] ++ List.replicate small.pollMax true ++ [] := by
  decide +kernel

/-- Obligations.InterleavingIsInvisible: program P5's placement, shortened. -/
theorem test_witness_interleaving :
    let placed : List Input := [.proceed, .request .tick [0x50, 0x00, 0x01], .proceed, .request .tick [0x60, 0x02, 0x58]]
    (measuring.withInputs (placed ++ [.proceed])).inputs = placed ++ [.proceed] ∧
      ∀ x ∈ placed, x.betweenSteps = true := by decide

/-- Obligations.TruncationIsTowardZero: R154's numbers, on both sides. -/
theorem test_witness_trunc :
    (0 : Rat) ≤ 2509 / 10 ∧ trunc (2509 / 10) = 250 ∧ (-3607 / 10 : Rat) ≤ 0 ∧ trunc (-3607 / 10) = -360 ∧
    (-1 / 2 : Rat) ≤ 0 ∧ trunc (-1 / 2) = 0 := by decide +kernel

/-- Obligations.ConvertInExactArithmetic. -/
theorem test_witness_exact : (start []).cfg.num = .exact := rfl

/-- Obligations.ConvertInSinglePrecision, raw values: the ends of the range. -/
theorem test_witness_raw_values : 0 ≤ 65535 ∧ 65535 ≤ 65535 ∧ F32.round 65535 = .fin 65535 := by decide +kernel

/-- Obligations.ConvertInSinglePrecision, rounding: a number halfway between two binary32 values, the even one and the other. -/
theorem test_witness_tie :
    F32.round 16777217 = .fin 16777216 ∧ IsBinary32 (2 ^ 23 + 1) 1 16777218 ∧
    |(16777217 : Rat) - 16777216| = |(16777217 : Rat) - 16777218| :=
  ⟨by decide +kernel, ⟨by norm_num, by norm_num, by norm_num, .inr (by norm_num), by norm_num⟩, by norm_num⟩

/-- Obligations.ConvertInSinglePrecision, the formulas: nothing overflows, and the numbers are those of V-CV-3 (V-CV-26: the
same in both arithmetics). -/
theorem test_witness_single :
    single.num = .binary32 ∧
    ((degreesRounded single.toParameters 6500).bind (fun dT => rounded (dT * 10))).map trunc = some 250 ∧
    ((humidityRounded single.toParameters 6500 1500).bind (fun d => rounded (max 0 (min 100 d) * 10))).map trunc =
      some 504 := by decide +kernel

/-- Obligations.ToPackedBcdEffect and PackedBcdRoundTrip: the least values out of range and the bounds in range. -/
theorem test_witness_bcd :
    7999 < (8000 : Word).toInt ∧ (-8000 : Word).toInt < -7999 ∧ -7999 ≤ (-7999 : Word).toInt ∧ (7999 : Word).toInt ≤ 7999 ∧
    (-7999 : Word).toInt ≤ 7999 ∧ -7999 ≤ (7999 : Word).toInt := by decide

/-- Obligations.DebounceTickEffect and ReadEventEffect: the last channel of two. -/
theorem test_witness_channel : (startSmall []).channels[(1 : Byte).toNat]? = some Channel.reset := by decide +kernel

/-- Obligations.HeldButtonEvents: a channel that meets the premises, ticks that are a `Hold` in each of the three ways, and
ticks that are not (V-DB-2). -/
theorem test_witness_held :
    (Channel.reset.seq = .idle ∧ Channel.reset.settled = false ∧ Channel.reset.filterShift.extractLsb' 0 3 = 0) ∧
    7 = 3 + small.shortPressLimit ∧ 10 = 3 + small.shortPressLimit + small.longPressFirstPeriod ∧
    12 = 3 + small.shortPressLimit + small.longPressFirstPeriod + 1 * small.longPressRepeatPeriod ∧
    (Channel.reset.ticks small (List.replicate 12 true)).eventOut = .hold ∧
    (Channel.reset.ticks small (List.replicate 1 true)).eventOut = .none ∧
    (Channel.reset.ticks small (List.replicate 11 true)).eventOut = .none := by decide +kernel

/-- Obligations.ShortPressIsOnePressed. -/
theorem test_witness_short_press : 3 ≤ Config.vectors.shortPressLimit ∧ 3 ≤ small.shortPressLimit := by decide +kernel

/-- Obligations.Crc8Result: the longest sequence the port carries. -/
theorem test_witness_crc8_length : (List.replicate 255 (0xFF : Byte)).length ≤ 255 := by decide +kernel

/-- Obligations.ThermalSampleEffect, its last clause: a state with the invariants and the widest sample. -/
theorem test_witness_thermal_inv :
    (start []).thermal.buffer[(start []).thermal.pos]? = some 0 ∧ 0 ≤ (start []).thermal.sum ∧ State.Inv (start []) ∧
      (65535 : Word).toNat < 2 ^ (start []).cfg.sampleBits :=
  ⟨by decide +kernel, Nat.zero_le _, test_witness_inv.1, by decide +kernel⟩

/-- Obligations.ThermalSampleEffect. -/
theorem test_witness_thermal :
    ((startSmall []).withThermal window4).thermal.buffer[((startSmall []).withThermal window4).thermal.pos]? = some 100 ∧
    100 ≤ ((startSmall []).withThermal window4).thermal.sum := by decide +kernel

/-- Obligations.TripFlagHysteresis: both ends of the band, and the sums next to it. -/
theorem test_witness_band :
    small.lowerThreshold ≤ 360 ∧ 360 ≤ small.upperThreshold ∧ small.lowerThreshold ≤ 400 ∧ 400 ≤ small.upperThreshold ∧
    small.upperThreshold < 401 ∧ 359 < small.lowerThreshold := by decide +kernel

/-- Obligations.ConstantSamplesFillTheWindow: above the upper threshold and below the lower one (V-TH-2, V-TH-3). -/
theorem test_witness_constant_samples :
    let s := (start []).withInputs (List.replicate 16 (.request .tick (encode (.thermalSample 521))))
    State.Inv s ∧ (521 : Word).toNat < 2 ^ s.cfg.sampleBits ∧
      s.inputs = List.replicate s.cfg.n (.request .tick (encode (.thermalSample 521))) ∧
      s.cfg.n * (521 : Word).toNat > s.cfg.upperThreshold ∧ s.cfg.n * (499 : Word).toNat < s.cfg.lowerThreshold := by
  have h := test_witness_inv.1
  exact ⟨⟨h.1, h.2, h.3, h.4, h.5, h.6, h.7, h.8, h.9⟩, by decide, rfl, by decide, by decide⟩

/-- Obligations.WarmUpDelaysTheTrip: a full window whose sum is exactly the upper threshold (V-TH-2, run d). -/
theorem test_witness_warm_up :
    16 ≤ Config.vectors.n ∧ 16 * 520 ≤ Config.vectors.upperThreshold := by decide +kernel

end Sys2Proof.Tests
end

