-- ==== Sys2Proof/Proofs/SumWidth.lean ====
section
/-!
The width of the running sum (R6, R33): a window of `N` samples of `SAMPLE_BITS` bits each, and the invariants (R32, R37)
that say the sum is that of such a window.
-/

namespace Sys2Proof.Machine

/-- A full window adds up to at most `N` times the largest sample (R32). -/
theorem window_sum_le (c : Config) (window : List Nat) (hlen : window.length = c.n)
    (hfits : ∀ v ∈ window, v < 2 ^ c.sampleBits) : window.sum ≤ c.n * (2 ^ c.sampleBits - 1) := by
  have hle : window.sum ≤ window.length • (2 ^ c.sampleBits - 1) :=
    List.sum_le_card_nsmul window _ fun v hv => Nat.le_sub_one_of_lt (hfits v hv)
  rwa [hlen, smul_eq_mul] at hle

/-- `SUM_BITS = SAMPLE_BITS + ceil(log2 N)` bits hold `N` times the largest sample (R6). -/
theorem window_bound_lt_two_pow_sumBits (c : Config) :
    c.n * (2 ^ c.sampleBits - 1) < 2 ^ (c.sampleBits + Nat.clog 2 c.n) :=
  calc c.n * (2 ^ c.sampleBits - 1)
      < c.n * 2 ^ c.sampleBits := Nat.mul_lt_mul_of_pos_left (Nat.sub_one_lt (by positivity)) c.n_pos
    _ ≤ 2 ^ Nat.clog 2 c.n * 2 ^ c.sampleBits := Nat.mul_le_mul_right _ (Nat.le_pow_clog (by decide) c.n)
    _ = 2 ^ (c.sampleBits + Nat.clog 2 c.n) := by rw [← pow_add, add_comm]

/-- The invariants make the running sum that of a full window, within its bound (R32, R37). -/
theorem State.Inv.sum_le {s : State} (h : s.Inv) : s.thermal.sum ≤ s.cfg.n * (2 ^ s.cfg.sampleBits - 1) :=
  h.sum_eq ▸ window_sum_le s.cfg s.thermal.buffer h.buffer_length h.buffer_fits

/-- Settles O57: the bound of a full window, which `SUM_BITS` bits hold. -/
theorem sumFitsItsWidth : Obligations.SumFitsItsWidth := fun s h =>
  ⟨h.sum_le, h.sum_le.trans_lt (window_bound_lt_two_pow_sumBits s.cfg)⟩

end Sys2Proof.Machine
end

/-!
The state of the block as a whole (spec/10_state.md): its values after reset (R43), what each port may write (R40,
R41), the lines after an engine operation (R39, R120), and the invariants that every step keeps (R26, R32, R37 to R39).

The invariants come apart along the two ports: `TickInv` speaks of what the TICK port owns and `MainInv` of what the MAIN
port owns (`inv_iff`), so that an operation of one port carries the other port's part over unchanged (R41).
-/

namespace Sys2Proof.Machine

/-! ### What each port writes (R40, R41) -/

/-- An operation of the TICK port leaves alone what MAIN owns (R41). -/
theorem exec_tick_sameMain (i : Instr) (s t : State) (hp : i.port = .tick) (h : exec i s = .next t) : SameMain s t := by
  obtain ⟨ch, th, r, he⟩ := exec_tick i s hp
  cases he.symm.trans h
  exact ⟨rfl, rfl, rfl, rfl, rfl⟩

/-- An operation of the MAIN port leaves alone what TICK owns (R41). -/
theorem exec_main_sameTick (i : Instr) (s t : State) (hp : i.port = .main) (h : exec i s = .next t) : SameTick s t := by
  obtain ⟨b, d, v, r, he⟩ := exec_main i s hp
  cases he.symm.trans h
  exact ⟨rfl, rfl, rfl, rfl⟩

/-- A micro-step leaves alone what TICK owns (R41). -/
theorem advance_sameTick (s : State) : SameTick s (advance s) :=
  ⟨advance_cfg s, advance_channels s, advance_thermal s, advance_tickResponse s⟩

/-- Settles O16, from what the operations of each port and the micro-steps leave alone. -/
theorem portsWriteOnlyWhatTheyOwn : Obligations.PortsWriteOnlyWhatTheyOwn :=
  ⟨fun i s t h => ⟨fun hp => exec_tick_sameMain i s t hp h, fun hp => exec_main_sameTick i s t hp h⟩, advance_sameTick⟩

/-- The two operations that TICK accepts (R222). -/
theorem port_eq_tick_iff (i : Instr) :
    i.port = .tick ↔ (∃ ch b, i = .debounceTick ch b) ∨ ∃ v, i = .thermalSample v := by
  cases i <;> simp [Instr.port, Instr.opcode, Opcode.port]

/-- The channels and the window change only where the step serves a request that TICK accepts, or the reset event. -/
theorem step_channels_thermal_cases (s t : State) (h : step s = .next t) :
    (∃ rest, s.inputs = .reset :: rest) ∨ (t.channels = s.channels ∧ t.thermal = s.thermal) ∨
      ∃ bytes rest i, s.inputs = .request .tick bytes :: rest ∧ decodeRequest s.cfg bytes = .ok i ∧ i.port = .tick ∧
        exec i (s.withInputs rest) = .next t := by
  obtain ⟨rest, hin, _⟩ | ⟨rest, _, hs⟩ | ⟨bytes, rest, hin, hs⟩ | ⟨bytes, rest, _, _, hs⟩ := step_cases s
  · exact .inl ⟨rest, hin⟩
  · cases hs.symm.trans h
    exact .inr (.inl ⟨advance_channels _, advance_thermal _⟩)
  · obtain ⟨_, _, hv⟩ | ⟨_, _, _, hv⟩ | ⟨i, hd, hp, hv⟩ := serve_cases .tick bytes (s.withInputs rest)
    · cases (hs.trans hv).symm.trans h
      exact .inr (.inl ⟨rfl, rfl⟩)
    · cases (hs.trans hv).symm.trans h
      exact .inr (.inl ⟨rfl, rfl⟩)
    · exact .inr (.inr ⟨bytes, rest, i, hin, hd, hp, (hs.trans hv).symm.trans h⟩)
  · obtain ⟨b, d, v, r, hv⟩ := serve_main bytes (s.withInputs rest)
    cases (hs.trans hv).symm.trans h
    exact .inr (.inl ⟨rfl, rfl⟩)

/-- A step that changes a channel served a DEBOUNCE_TICK or the reset event. -/
theorem step_channels_ne (s t : State) (h : step s = .next t) (hne : t.channels ≠ s.channels) :
    (∃ bytes rest ch b, s.inputs = .request .tick bytes :: rest ∧
      decodeRequest s.cfg bytes = .ok (.debounceTick ch b)) ∨ ∃ rest, s.inputs = .reset :: rest := by
  obtain hreset | ⟨hch, _⟩ | ⟨bytes, rest, i, hin, hd, hp, he⟩ := step_channels_thermal_cases s t h
  · exact .inr hreset
  · exact absurd hch hne
  · obtain ⟨ch, b, rfl⟩ | ⟨v, rfl⟩ := (port_eq_tick_iff i).mp hp
    · exact .inl ⟨bytes, rest, ch, b, hin, hd⟩
    · cases he
      exact absurd rfl hne

/-- A step that changes the window served a THERMAL_SAMPLE or the reset event. -/
theorem step_thermal_ne (s t : State) (h : step s = .next t) (hne : t.thermal ≠ s.thermal) :
    (∃ bytes rest v, s.inputs = .request .tick bytes :: rest ∧ decodeRequest s.cfg bytes = .ok (.thermalSample v)) ∨
      ∃ rest, s.inputs = .reset :: rest := by
  obtain hreset | ⟨_, hth⟩ | ⟨bytes, rest, i, hin, hd, hp, he⟩ := step_channels_thermal_cases s t h
  · exact .inr hreset
  · exact absurd hth hne
  · obtain ⟨ch, b, rfl⟩ | ⟨v, rfl⟩ := (port_eq_tick_iff i).mp hp
    · cases he
      exact absurd rfl hne
    · exact .inl ⟨bytes, rest, v, hin, hd⟩

/-- Settles O17: a settled bit is a part of its channel, and the trip flag a part of the window. -/
theorem flagsChangeOnlyWhereStated : Obligations.FlagsChangeOnlyWhereStated := fun s t h =>
  ⟨fun ⟨_, hk⟩ => step_channels_ne s t h fun heq => hk (by rw [heq]),
    fun hne => step_thermal_ne s t h fun heq => hne (by rw [heq])⟩

/-! ### The lines after a list of bus actions (R39, R120) -/

/-- A list of actions that brings the lines to rest leaves the bus at rest. -/
theorem run_rests (p : List BusOp) (b : Bus) (h : pinsAfter p (b.dataDrv, b.sck) = (true, false)) :
    (b.run p).1.dataDrv = true ∧ (b.run p).1.sck = false :=
  Prod.mk.inj ((runFrom_pins p (b, [])).trans h)

/-- Such a list also adds one entry to the trace for each of its actions (R111). -/
theorem run_to_rest (p : List BusOp) (b : Bus) (h : pinsAfter p (b.dataDrv, b.sck) = (true, false)) :
    (b.run p).1.dataDrv = true ∧ (b.run p).1.sck = false ∧ (b.run p).1.trace.length = b.trace.length + p.length := by
  obtain ⟨hdata, hclock⟩ := run_rests p b h
  exact ⟨hdata, hclock, runFrom_trace_length p (b, [])⟩

/-- Settles O26: each of the four operations is one list of actions, of known length, that ends with the lines at rest. -/
theorem engineOperationsRestTheBus : Obligations.EngineOperationsRestTheBus := by
  rintro s i actions (⟨rfl, rfl⟩ | ⟨rfl, rfl⟩ | ⟨⟨v, rfl⟩, rfl⟩ | ⟨⟨a, rfl⟩, rfl⟩)
  · obtain ⟨hdata, hclock, htrace⟩ := run_to_rest (startProgram s.cfg) s.bus (startProgram_pins _ _)
    exact ⟨_, rfl, hdata, hclock, htrace, rfl, rfl, rfl, rfl, rfl, rfl, rfl⟩
  · obtain ⟨hdata, hclock, htrace⟩ := run_to_rest (resetProgram s.cfg) s.bus (resetProgram_pins _ _)
    exact ⟨_, rfl, hdata, hclock, htrace, rfl, rfl, rfl, rfl, rfl, rfl, rfl⟩
  · obtain ⟨hdata, hclock, htrace⟩ := run_to_rest (writeProgram s.cfg v) s.bus (writeProgram_pins _ _ _)
    exact ⟨_, rfl, hdata, hclock, htrace, rfl, rfl, rfl, rfl, rfl, rfl, rfl⟩
  · obtain ⟨hdata, hclock, htrace⟩ := run_to_rest (readProgram s.cfg a) s.bus (readProgram_pins _ _ _)
    exact ⟨_, rfl, hdata, hclock, htrace, rfl, rfl, rfl, rfl, rfl, rfl, rfl⟩

/-! ### The invariants, port by port -/

/-- The invariants of what the TICK port owns (R27 to R35, R37, R38). -/
structure TickInv (s : State) : Prop where
  channels_length : s.channels.length = s.cfg.nb
  buffer_length : s.thermal.buffer.length = s.cfg.n
  buffer_fits : ∀ v ∈ s.thermal.buffer, v < 2 ^ s.cfg.sampleBits
  sum_eq : s.thermal.sum = s.thermal.buffer.sum
  pos_lt : s.thermal.pos < s.cfg.n

/-- The invariants of what the MAIN port owns (R23 to R26, R36, R38, R39). -/
structure MainInv (s : State) : Prop where
  duty_lt : s.duty.toNat < s.cfg.period
  poll_le : s.sensor.poll ≤ s.cfg.pollMax
  bus_rest : s.sensor.running = none → s.bus.dataDrv = true ∧ s.bus.sck = false
  measure_ok : ∀ m, s.sensor.running = some m → MeasureOk s m

/-- The invariants are those of the two ports. -/
theorem inv_iff (s : State) : s.Inv ↔ TickInv s ∧ MainInv s :=
  ⟨fun ⟨hch, hlen, hfits, hsum, hpos, hduty, hpoll, hbus, hm⟩ =>
      ⟨⟨hch, hlen, hfits, hsum, hpos⟩, ⟨hduty, hpoll, hbus, hm⟩⟩,
    fun ⟨⟨hch, hlen, hfits, hsum, hpos⟩, ⟨hduty, hpoll, hbus, hm⟩⟩ =>
      ⟨hch, hlen, hfits, hsum, hpos, hduty, hpoll, hbus, hm⟩⟩

/-- TICK's invariants speak of the channels and the window only. -/
theorem TickInv.of_eq {s t : State} (h : TickInv s) (hcfg : t.cfg = s.cfg) (hch : t.channels = s.channels)
    (hth : t.thermal = s.thermal) : TickInv t := by
  obtain ⟨hlen, hbuf, hfits, hsum, hpos⟩ := h
  rw [← hcfg] at hlen hbuf hfits hpos
  rw [← hch] at hlen
  rw [← hth] at hbuf hfits hsum hpos
  exact ⟨hlen, hbuf, hfits, hsum, hpos⟩

/-- THERMAL_SAMPLE keeps the window's invariants: the sum follows the entry replaced (R37), the position wraps (R38). -/
theorem TickInv.withSample {s : State} (h : TickInv s) (v : Nat) (hv : v < 2 ^ s.cfg.sampleBits) :
    TickInv (s.withThermal (s.thermal.sample s.cfg v)) := by
  obtain ⟨hch, hlen, hfits, hsum, hpos⟩ := h
  refine ⟨hch, (List.length_set ..).trans hlen, fun x hx => ?_, ?_, Nat.mod_lt _ s.cfg.n_pos⟩
  · obtain hx | rfl := List.mem_or_eq_of_mem_set hx
    · exact hfits x hx
    · exact hv
  · have hset := (sum_set s.thermal.buffer s.thermal.pos v (hlen ▸ hpos)).1
    rw [← hsum] at hset
    exact hset.symm

/-- A channel written keeps their number. -/
theorem TickInv.withChannel {s : State} (h : TickInv s) (ch : Byte) (k : Channel) : TickInv (s.withChannel ch k) :=
  ⟨(List.length_set ..).trans h.channels_length, h.buffer_length, h.buffer_fits, h.sum_eq, h.pos_lt⟩

/-- MAIN's invariants speak of the bus, SensorDriver and the duty only. -/
theorem MainInv.of_eq {s t : State} (h : MainInv s) (hcfg : t.cfg = s.cfg) (hbus : t.bus = s.bus)
    (hsensor : t.sensor = s.sensor) (hduty : t.duty = s.duty) : MainInv t := by
  obtain ⟨hd, hp, hb, hm⟩ := h
  unfold MeasureOk at hm
  rw [← hcfg, ← hduty] at hd
  rw [← hcfg, ← hsensor] at hp
  rw [← hsensor, ← hbus] at hb
  rw [← hcfg, ← hsensor, ← hbus] at hm
  exact ⟨hd, hp, hb, hm⟩

/-! ### The MAIN port with no operation in progress -/

/-- MAIN's invariants where the lines are at rest: between two stages of an operation, and with none in progress (R39). -/
structure LinesAtRest (s : State) : Prop where
  bus_rest : s.bus.dataDrv = true ∧ s.bus.sck = false
  duty_lt : s.duty.toNat < s.cfg.period
  poll_le : s.sensor.poll ≤ s.cfg.pollMax

/-- MAIN's invariants with no operation in progress. -/
structure MainIdle (s : State) : Prop extends LinesAtRest s where
  not_running : s.sensor.running = none

theorem MainIdle.mainInv {s : State} (h : MainIdle s) : MainInv s :=
  ⟨h.duty_lt, h.poll_le, fun _ => h.bus_rest, fun _ hm => by simp [h.not_running] at hm⟩

theorem MainInv.mainIdle {s : State} (h : MainInv s) (hr : s.sensor.running = none) : MainIdle s :=
  ⟨⟨h.bus_rest hr, h.duty_lt, h.poll_le⟩, hr⟩

theorem MainIdle.answer {s : State} (h : MainIdle s) (st : Status) (l : List Byte) : MainIdle (s.answer .main st l) :=
  ⟨⟨h.bus_rest, h.duty_lt, h.poll_le⟩, h.not_running⟩

theorem MainIdle.withPhase {s : State} (h : MainIdle s) (p : Phase) : MainIdle (s.withPhase p) :=
  ⟨⟨h.bus_rest, h.duty_lt, h.poll_le⟩, h.not_running⟩

theorem MainIdle.withKind {s : State} (h : MainIdle s) (k : Kind) : MainIdle (s.withKind k) :=
  ⟨⟨h.bus_rest, h.duty_lt, h.poll_le⟩, h.not_running⟩

theorem MainIdle.withDuty {s : State} (h : MainIdle s) (v : Byte) (hv : v.toNat < s.cfg.period) : MainIdle (s.withDuty v) :=
  ⟨⟨h.bus_rest, hv, h.poll_le⟩, h.not_running⟩

/-- A list of actions that takes the lines from rest to rest keeps the block at rest. -/
theorem MainIdle.withRun {s : State} (h : MainIdle s) (p : List BusOp) (hp : pinsAfter p (true, false) = (true, false)) :
    MainIdle (s.withBus (s.bus.run p).1) :=
  ⟨⟨run_rests p s.bus (by rw [h.bus_rest.1, h.bus_rest.2, hp]), h.duty_lt, h.poll_le⟩, h.not_running⟩

/-- What SET_DUTY writes is below `PERIOD` (R200, R201). -/
theorem gatedDuty_lt (c : Config) (tripped : Bool) (v : Byte) :
    (if tripped then 0 else clampDuty c v).toNat < c.period := by
  have hpos := c.period_pos
  have hclamp := clampDuty_toNat c v
  cases tripped with
  | true => exact hpos
  | false =>
    show (clampDuty c v).toNat < c.period
    split at hclamp <;> omega

/-! ### The operation in progress -/

/-- What the registers are at the start of a stage and throughout it (R130, R140). -/
def StageOk (c : Config) (phase : Phase) (poll : Nat) : Stage → Prop
  | .command => acceptsStart phase = true
  | .check => acceptsPoll phase = true ∧ poll < c.pollMax
  | .pause => phase = .polling ∧ 1 ≤ poll
  | .read => phase = .read

theorem measureOk_iff (s : State) (m : Measure) :
    MeasureOk s m ↔ m.todo ≠ [] ∧ m.todo <:+ (stageStart s.cfg s.sensor.kind m.checked m.stage).todo ∧
      m.got.length + samplesIn m.todo = samplesIn (stageStart s.cfg s.sensor.kind m.checked m.stage).todo ∧
      pinsAfter m.todo (s.bus.dataDrv, s.bus.sck) = (true, false) ∧
      StageOk s.cfg s.sensor.phase s.sensor.poll m.stage := by
  obtain ⟨checked, stage, todo, got⟩ := m
  cases stage <;> rfl

/-- Every stage has micro-steps. -/
theorem stageStart_todo_ne_nil (c : Config) (k : Kind) (checked : Bool) (stage : Stage) :
    (stageStart c k checked stage).todo ≠ [] := by
  cases stage with
  | command => exact List.ne_nil_of_length_pos (by simp [stageStart])
  | check => exact List.cons_ne_nil _ _
  | pause => exact List.cons_ne_nil _ _
  | read => exact List.ne_nil_of_length_pos (by simp [stageStart])

/-- Every stage takes the lines from rest to rest. -/
theorem stageStart_pins (c : Config) (k : Kind) (checked : Bool) (stage : Stage) :
    pinsAfter (stageStart c k checked stage).todo (true, false) = (true, false) := by
  cases stage with
  | command => exact commandProgram_pins c k _
  | check => rfl
  | pause => rfl
  | read => exact resultProgram_pins c _

/-- A stage may begin when the lines are at rest and the registers are those of the stage. -/
theorem measureOk_stageStart (s : State) (checked : Bool) (stage : Stage)
    (hb : s.bus.dataDrv = true ∧ s.bus.sck = false) (h : StageOk s.cfg s.sensor.phase s.sensor.poll stage) :
    MeasureOk s (stageStart s.cfg s.sensor.kind checked stage) := by
  refine (measureOk_iff s _).mpr ⟨stageStart_todo_ne_nil _ _ _ _, List.suffix_rfl, Nat.zero_add _, ?_, h⟩
  rw [hb.1, hb.2]
  exact stageStart_pins _ _ _ _

/-- MEASURE and MEASURE_AND_CHECK are refused or leave the operation at its first stage (R140). -/
theorem acceptMeasure_mainInv (checked : Bool) (k : Kind) (s : State) (h : MainIdle s) :
    MainInv (acceptMeasure checked k s) := by
  unfold acceptMeasure
  split
  next hphase =>
    refine ⟨h.duty_lt, h.poll_le, nofun, ?_⟩
    rintro _ ⟨rfl⟩
    exact measureOk_stageStart _ checked .command h.bus_rest hphase
  next => exact (h.answer .refused []).mainInv

/-- The next stage of an operation begins with MAIN's invariants. -/
theorem enterStage_mainInv (m : Measure) (stage : Stage) (s : State) (h : LinesAtRest s)
    (hstage : StageOk s.cfg s.sensor.phase s.sensor.poll stage) : MainInv (enterStage m stage s) := by
  refine ⟨h.duty_lt, h.poll_le, nofun, ?_⟩
  rintro _ ⟨rfl⟩
  exact measureOk_stageStart (enterStage m stage s) m.checked stage h.bus_rest hstage

/-- An operation that ends leaves the block at rest. -/
theorem finishMeasure_mainInv (phase : Phase) (st : Status) (l : List Byte) (s : State) (h : LinesAtRest s) :
    MainInv (finishMeasure phase st l s) :=
  MainIdle.mainInv ⟨⟨h.bus_rest, h.duty_lt, h.poll_le⟩, rfl⟩

/-- After a stage's last micro-step the operation ends, or its next stage may begin (R140). -/
theorem endStage_mainInv (m : Measure) (s : State) (h : LinesAtRest s)
    (hstage : StageOk s.cfg s.sensor.phase s.sensor.poll m.stage) : MainInv (endStage m s) := by
  obtain ⟨checked, stage, todo, got⟩ := m
  cases stage with
  | command =>
    simp only [endStage]
    split
    · exact finishMeasure_mainInv _ _ _ s h
    · exact enterStage_mainInv _ .check _ ⟨h.bus_rest, h.duty_lt, Nat.zero_le _⟩ ⟨rfl, s.cfg.pollMax_pos⟩
  | check =>
    obtain ⟨_, hlt⟩ := hstage
    simp only [endStage]
    split
    · exact enterStage_mainInv _ .read _ ⟨h.bus_rest, h.duty_lt, hlt⟩ rfl
    · exact enterStage_mainInv _ .pause _ ⟨h.bus_rest, h.duty_lt, hlt⟩ ⟨rfl, Nat.succ_pos _⟩
  | pause =>
    obtain ⟨hphase, _⟩ := hstage
    simp only [endStage]
    split
    next => exact finishMeasure_mainInv _ _ _ s h
    next hne => exact enterStage_mainInv _ .check s h ⟨by rw [hphase]; rfl, lt_of_le_of_ne h.poll_le hne⟩
  | read =>
    simp only [endStage]
    split <;> exact finishMeasure_mainInv _ _ _ s h

/-- A micro-step keeps MAIN's invariants. -/
theorem advance_mainInv (s : State) (h : MainInv s) : MainInv (advance s) := by
  cases hr : s.sensor.running with
  | none => rwa [advance_idle s hr]
  | some m =>
    obtain ⟨hne, hsuffix, hgot, hpins, hstage⟩ := (measureOk_iff s m).mp (h.measure_ok m hr)
    match ht : m.todo with
    | [] => exact absurd ht hne
    | [op] =>
      rw [ht, ← busStep_pins op (s.bus, m.got)] at hpins
      rw [advance_last s m op hr ht]
      exact endStage_mainInv _ _ ⟨Prod.mk.inj hpins, h.duty_lt, h.poll_le⟩ hstage
    | op :: op' :: rest =>
      rw [ht] at hsuffix hgot hpins
      rw [advance_inside s m op op' rest hr ht]
      refine ⟨h.duty_lt, h.poll_le, nofun, ?_⟩
      rintro _ ⟨rfl⟩
      refine (measureOk_iff _ _).mpr ⟨List.cons_ne_nil _ _, (List.suffix_cons op _).trans hsuffix, ?_, ?_, hstage⟩
      · have hstep := busStep_got_length op (s.bus, m.got)
        have hsplit := samplesIn_append [op] (op' :: rest)
        rw [List.singleton_append] at hsplit
        dsimp only at hstep ⊢
        omega
      · rwa [pinsAfter_cons, ← busStep_pins op (s.bus, m.got)] at hpins

/-! ### The steps -/

/-- A MAIN request served with no operation in progress keeps MAIN's invariants. -/
theorem exec_main_mainInv (i : Instr) (s : State) (hp : i.port = .main) (h : MainIdle s) :
    ∃ t, exec i s = .next t ∧ MainInv t := by
  cases i with
  | crc8 data => exact ⟨_, rfl, (h.answer _ _).mainInv⟩
  | convert rawTemp rawHumidity => exact ⟨_, rfl, (h.answer _ _).mainInv⟩
  | toPackedBcd value => exact ⟨_, rfl, (h.answer _ _).mainInv⟩
  | readEvent ch => exact ⟨_, rfl, (h.answer _ _).mainInv⟩
  | isOvertemp => exact ⟨_, rfl, (h.answer _ _).mainInv⟩
  | getDuty => exact ⟨_, rfl, (h.answer _ _).mainInv⟩
  | setDuty value => exact ⟨_, rfl, ((h.withDuty _ (gatedDuty_lt _ _ _)).answer _ _).mainInv⟩
  | busStart => exact ⟨_, rfl, ((h.withRun _ (startProgram_pins _ _)).answer _ _).mainInv⟩
  | busReset => exact ⟨_, rfl, (((h.withRun _ (resetProgram_pins _ _)).withPhase _).answer _ _).mainInv⟩
  | busWriteByte value => exact ⟨_, rfl, ((h.withRun _ (writeProgram_pins _ _ _)).answer _ _).mainInv⟩
  | busReadByte sendAck => exact ⟨_, rfl, ((h.withRun _ (readProgram_pins _ _ _)).answer _ _).mainInv⟩
  | startMeasurement kind =>
    have hrun := (h.withKind kind).withRun _ (commandProgram_pins s.cfg kind _)
    refine ⟨_, rfl, ?_⟩
    dsimp only
    split
    · split <;> exact ((hrun.withPhase _).answer _ _).mainInv
    · exact (h.answer _ _).mainInv
  | pollDone =>
    have hrun := h.withRun [.sample] rfl
    refine ⟨_, rfl, ?_⟩
    dsimp only
    split
    · split <;> exact ((hrun.withPhase _).answer _ _).mainInv
    · exact (h.answer _ _).mainInv
  | readResult =>
    have hrun := h.withRun _ (resultProgram_pins s.cfg _)
    refine ⟨_, rfl, ?_⟩
    dsimp only
    split
    · exact ((hrun.withPhase _).answer _ _).mainInv
    · exact (h.answer _ _).mainInv
  | verifyCrc kind hi lo cs =>
    refine ⟨_, rfl, ?_⟩
    split <;> exact (h.answer _ _).mainInv
  | measure kind => exact ⟨_, rfl, acceptMeasure_mainInv false kind s h⟩
  | measureAndCheck kind => exact ⟨_, rfl, acceptMeasure_mainInv true kind s h⟩
  | debounceTick ch sample => cases hp
  | thermalSample newSample => cases hp

/-- Serving on MAIN with no operation in progress keeps MAIN's invariants. -/
theorem serve_main_mainInv (bytes : List Byte) (s t : State) (h : MainIdle s) (he : serve .main bytes s = .next t) :
    MainInv t := by
  obtain ⟨_, _, hv⟩ | ⟨_, _, _, hv⟩ | ⟨i, _, hp, hv⟩ := serve_cases .main bytes s
  · cases hv.symm.trans he
    exact (h.answer .illegal []).mainInv
  · cases hv.symm.trans he
    exact (h.answer .refused []).mainInv
  · obtain ⟨u, hu, hinv⟩ := exec_main_mainInv i s hp h
    cases (hv.trans hu).symm.trans he
    exact hinv

/-- Serving on TICK keeps TICK's invariants. -/
theorem serve_tick_tickInv (bytes : List Byte) (s t : State) (h : TickInv s) (he : serve .tick bytes s = .next t) :
    TickInv t := by
  obtain ⟨_, _, hv⟩ | ⟨_, _, _, hv⟩ | ⟨i, hd, hp, hv⟩ := serve_cases .tick bytes s
  · cases hv.symm.trans he
    exact h.of_eq rfl rfl rfl
  · cases hv.symm.trans he
    exact h.of_eq rfl rfl rfl
  · obtain ⟨ch, b, rfl⟩ | ⟨v, rfl⟩ := (port_eq_tick_iff i).mp hp
    · cases hv.symm.trans he
      exact (h.withChannel ch _).of_eq rfl rfl rfl
    · have hdom := operandsInDomain_of_decodeRequest s.cfg bytes _ hd
      have hlt : v.toNat < 2 ^ s.cfg.sampleBits :=
        Nat.lt_of_le_sub_one (by positivity) (of_decide_eq_true hdom)
      cases hv.symm.trans he
      exact (h.withSample v.toNat hlt).of_eq rfl rfl rfl

/-- The invariants hold in every state whose registers are those after reset (R43). -/
theorem inv_of_reset (s : State) (hbus : s.bus.dataDrv = true ∧ s.bus.sck = false) (hsensor : s.sensor = Sensor.reset)
    (hch : s.channels = List.replicate s.cfg.nb Channel.reset) (hth : s.thermal = Thermal.reset s.cfg)
    (hduty : s.duty = 0) : s.Inv := by
  have htick : TickInv s := by
    refine ⟨by simp [hch], by simp [hth, Thermal.reset], ?_, by simp [hth, Thermal.reset], ?_⟩
    · simp [hth, Thermal.reset]
    · rw [hth]
      exact s.cfg.n_pos
  have hrest : MainIdle s := by
    refine ⟨⟨hbus, ?_, ?_⟩, by rw [hsensor]; rfl⟩
    · rw [hduty]
      exact s.cfg.period_pos
    · rw [hsensor]
      exact Nat.zero_le _
  exact (inv_iff s).mpr ⟨htick, hrest.mainInv⟩

/-- Settles O14: a reset event gives the reset values, and every other step keeps the invariants of the port it runs on and
leaves alone what the other port owns. -/
theorem stepKeepsInvariants : Obligations.StepKeepsInvariants := by
  intro s t hinv h
  obtain ⟨htick, hmain⟩ := (inv_iff s).mp hinv
  obtain ⟨rest, _, hs⟩ | ⟨rest, _, hs⟩ | ⟨bytes, rest, _, hs⟩ | ⟨bytes, rest, _, hr, hs⟩ := step_cases s
  · cases hs.symm.trans h
    exact inv_of_reset _ ⟨rfl, rfl⟩ rfl rfl rfl rfl
  · cases hs.symm.trans h
    obtain ⟨hcfg, hch, hth, _⟩ := advance_sameTick (s.withInputs rest)
    exact (inv_iff _).mpr ⟨htick.of_eq hcfg hch hth, advance_mainInv _ (hmain.of_eq rfl rfl rfl rfl)⟩
  · have he := hs.symm.trans h
    obtain ⟨ch, th, r, hv⟩ := serve_tick bytes (s.withInputs rest)
    have htick' := serve_tick_tickInv bytes (s.withInputs rest) t (htick.of_eq rfl rfl rfl) he
    cases hv.symm.trans he
    exact (inv_iff _).mpr ⟨htick', hmain.of_eq rfl rfl rfl rfl⟩
  · have he := hs.symm.trans h
    obtain ⟨b, d, v, r, hv⟩ := serve_main bytes (s.withInputs rest)
    have hpresented : MainInv (s.withInputs rest) := hmain.of_eq rfl rfl rfl rfl
    have hmain' := serve_main_mainInv bytes _ t (hpresented.mainIdle hr) he
    cases hv.symm.trans he
    exact (inv_iff _).mpr ⟨htick.of_eq rfl rfl rfl, hmain'⟩

/-! ### The state after reset (R43) -/

/-- Settles O13, for every configuration and so for that of the deployment. -/
theorem resetStateIsInvariant : Obligations.ResetStateIsInvariant :=
  have hreset (c : Config) : (State.resetWith c).Inv := inv_of_reset _ ⟨rfl, rfl⟩ rfl rfl rfl rfl
  ⟨hreset Config.deployed, hreset⟩

/-- Settles O12: every channel is a copy of the channel at reset, every entry of the ring is 0. -/
theorem registersAfterReset : Obligations.RegistersAfterReset := by
  refine ⟨rfl, fun c => ?_⟩
  have hchannels : ∀ k ∈ (State.resetWith c).channels, k = Channel.reset := fun k hk => List.eq_of_mem_replicate hk
  have hbuffer : ∀ v ∈ (State.resetWith c).thermal.buffer, v = 0 := fun v hv => List.eq_of_mem_replicate hv
  refine ⟨rfl, rfl, rfl, rfl, rfl, List.length_replicate, fun k hk => ?_, List.length_replicate, hbuffer, rfl, rfl, rfl,
    rfl⟩
  rw [hchannels k hk]
  exact ⟨rfl, rfl, rfl, rfl, rfl⟩

end Sys2Proof.Machine

/-!
What the two ports make of the state they share (spec/20_memory.md): which step serves a request and which takes a
micro-step (R58, R60), that the order of TICK requests and micro-steps cannot be seen (R62), a sample of the wired-AND line
(R64), and the frame of VERIFY_CRC (R57).

R62 is carried by `Interleaved`: a state agrees on MAIN's side with one that took the micro-steps alone, and on TICK's side
with one that served the TICK requests alone. Each of the two steps keeps it and moves the side it belongs to only.
-/

namespace Sys2Proof.Machine

/-! ### The step of each input (R58, R60) -/

/-- A request whose port serves it now is served, taken from the inputs. -/
theorem step_request (s : State) (p : Port) (bytes : List Byte) (rest : List Input)
    (hin : s.inputs = .request p bytes :: rest) (hidle : p = .main → s.sensor.running = none) :
    step s = serve p bytes (s.withInputs rest) := by
  cases p with
  | tick => simp [step, serveNext, hin]
  | main => simp [step, serveNext, hin, hidle rfl]

/-- A MAIN request waits for the operation in progress. -/
theorem step_main_waits (s : State) (bytes : List Byte) (rest : List Input) (m : Measure)
    (hin : s.inputs = .request .main bytes :: rest) (hrun : s.sensor.running = some m) : step s = .next (advance s) := by
  simp [step, serveNext, hin, hrun]

/-- Leave to go on is one micro-step. -/
theorem step_proceed (s : State) (rest : List Input) (hin : s.inputs = .proceed :: rest) :
    step s = .next (advance (s.withInputs rest)) := by
  simp [step, serveNext, hin]

/-- A request that decodes, on the port that accepts it, is `exec` of its operation (R218). -/
theorem serve_eq_exec (p : Port) (bytes : List Byte) (s : State) (i : Instr)
    (hd : decodeRequest s.cfg bytes = .ok i) (hp : i.port = p) : serve p bytes s = exec i s := by
  simp [serve, hd, hp]

/-- Settles O7: the request is served, and serving it is `exec`. -/
theorem stepRunsDecodedRequest : Obligations.StepRunsDecodedRequest := fun s p bytes rest i hin hd hp hidle =>
  (step_request s p bytes rest hin hidle).trans (serve_eq_exec p bytes (s.withInputs rest) i hd hp)

/-- Settles O10: the step is a micro-step in both clauses, and one with nothing in progress does nothing. -/
theorem mainRequestWaitsForMeasure : Obligations.MainRequestWaitsForMeasure := by
  refine ⟨fun s bytes rest m hin hrun => ⟨step_main_waits s bytes rest m hin hrun, advance_inputs s⟩, ?_⟩
  intro s hin hrun
  rw [step_idle s hin, advance_idle s hrun]

/-! ### TICK requests and micro-steps (R62) -/

/-- Settles O39: serving sees only what TICK owns, which the micro-step leaves alone, and the micro-step sees nothing of
what serving writes. -/
theorem tickCommutesWithMicroStep : Obligations.TickCommutesWithMicroStep := by
  intro s bytes
  obtain ⟨ch, th, r, hbefore, hafter⟩ := serve_tick_local bytes s (advance s) (advance_sameTick s)
  refine ⟨_, hbefore, ?_⟩
  rw [hafter, advance_with s ch th s.inputs r, advance_inputs]

/-- `s` agrees with `main` on what MAIN owns and with `tick` on what TICK owns. -/
structure Interleaved (main tick s : State) : Prop where
  sameMain : SameMain main s
  sameTick : SameTick tick s

/-- A micro-step is one on MAIN's side only. -/
theorem Interleaved.micro_step {main tick s : State} (h : Interleaved main tick s) (rest : List Input) :
    Interleaved (advance main) tick (advance (s.withInputs rest)) := by
  refine ⟨advance_sameMain main (s.withInputs rest) h.sameMain, ?_⟩
  obtain ⟨hcfg, hch, hth, hresp⟩ := h.sameTick
  obtain ⟨hcfg', hch', hth', hresp'⟩ := advance_sameTick (s.withInputs rest)
  exact ⟨hcfg'.trans hcfg, hch'.trans hch, hth'.trans hth, hresp'.trans hresp⟩

/-- A TICK request is one on TICK's side only. -/
theorem Interleaved.tick_request {main tick s : State} (h : Interleaved main tick s) (bytes : List Byte)
    (rest ticks : List Input) :
    ∃ s' tick', serve .tick bytes (s.withInputs rest) = .next s' ∧ serve .tick bytes (tick.withInputs ticks) = .next tick' ∧
      s'.inputs = rest ∧ tick'.inputs = ticks ∧ Interleaved main tick' s' := by
  obtain ⟨ch, th, r, htick, hs⟩ := serve_tick_local bytes (tick.withInputs ticks) (s.withInputs rest) h.sameTick
  exact ⟨_, _, hs, htick, rfl, rfl, h.sameMain, h.sameTick.1, rfl, rfl, rfl⟩

/-- The placement runs as its micro-steps alone do on MAIN's side and as its TICK requests alone do on TICK's. -/
theorem Interleaved.run_placed (placed later : List Input) {main tick s : State} (h : Interleaved main tick s)
    (hplaced : ∀ x ∈ placed, x.betweenSteps = true) (hs : s.inputs = placed ++ later)
    (htick : tick.inputs = placed.filter Input.isTick) :
    ∃ t v : State, core.run placed.length s = .next t ∧ t.inputs = later ∧
      core.run (placed.filter Input.isTick).length tick = .next v ∧
      Interleaved (advance^[placed.count .proceed] main) v t := by
  induction placed generalizing main tick s with
  | nil => exact ⟨s, tick, rfl, hs, rfl, h⟩
  | cons x placed ih =>
    obtain ⟨hx, hrest⟩ := List.forall_mem_cons.mp hplaced
    match x with
    | .reset => cases hx
    | .request .main bytes => cases hx
    | .proceed =>
      obtain ⟨t, v, hrun, hlater, hticks, hend⟩ := ih (h.micro_step (placed ++ later)) hrest (advance_inputs _) htick
      refine ⟨t, v, ?_, hlater, hticks, ?_⟩
      · rwa [List.length_cons, run_succ _ _ _ (step_proceed s _ hs)]
      · rwa [List.count_cons_self, Function.iterate_succ_apply]
    | .request .tick bytes =>
      obtain ⟨s', tick', hserve, hserveTick, hin, hinTick, h'⟩ :=
        h.tick_request bytes (placed ++ later) (placed.filter Input.isTick)
      obtain ⟨t, v, hrun, hlater, hticks, hend⟩ := ih h' hrest hin hinTick
      have hstep := (step_request s .tick bytes _ hs nofun).trans hserve
      have hstepTick := (step_request tick .tick bytes _ htick nofun).trans hserveTick
      refine ⟨t, v, ?_, hlater, ?_, ?_⟩
      · rwa [List.length_cons, run_succ _ _ _ hstep]
      · rwa [List.filter_cons_of_pos rfl, List.length_cons, run_succ _ _ _ hstepTick]
      · rwa [List.count_cons_of_ne (by simp)]

/-- Settles O40: the state is at first both sides of itself, and so it stays along the placement. -/
theorem interleavingIsInvisible : Obligations.InterleavingIsInvisible := by
  intro s placed later hin hplaced
  have hstart : Interleaved s
      { s with inputs := placed.filter Input.isTick, sensor := { s.sensor with running := none } } s :=
    ⟨⟨rfl, rfl, rfl, rfl, rfl⟩, rfl, rfl, rfl, rfl⟩
  obtain ⟨t, v, hrun, hlater, hticks, hend⟩ := hstart.run_placed placed later hplaced hin rfl
  exact ⟨t, v, hrun, hlater, hend.sameMain, hticks, hend.sameTick⟩

/-! ### A sample of the line (R64) -/

/-- A sample reads the level of the line. -/
theorem run_sample_level (b : Bus) : (b.run [.sample]).2 = [b.level] := rfl

/-- Settles O27, on both values of the block's drive. -/
theorem sampleReadsWiredAnd : Obligations.SampleReadsWiredAnd := by
  refine fun b => ⟨fun hlow => ?_, fun x rest hreleased hpeer => ?_⟩
  · rw [run_sample_level, Bus.level, hlow, Bool.false_and]
  · rw [run_check_settled b x rest hreleased hpeer]

/-! ### VERIFY_CRC (R57, R139) -/

/-- VERIFY_CRC writes its response and nothing else: OK exactly when the frame's check value is the checksum (R139). -/
theorem exec_verifyCrc (kind : Kind) (hi lo cs : Byte) (s : State) :
    exec (.verifyCrc kind hi lo cs) s = .next { s with
      mainResponse := [if crc8 s.cfg [commandByte s.cfg kind, hi, lo] = cs then 0x00 else 0x03] } := by
  simp only [exec, execVerifyCrc, checksumMatches, beq_iff_eq]
  split <;> rfl

/-- Settles O31: the last clause is the one before it where the configuration's table excludes a match (R104 (b)). -/
theorem verifyCrcEffect : Obligations.VerifyCrcEffect := by
  intro kind hi lo cs s
  have hexample : exec (.verifyCrc .temperature 0x01 0x90 0x00) s = .next { s with mainResponse := [0x03] } := by
    rw [exec_verifyCrc, commandByte, cmdTemp, if_neg (crc8_example_ne s.cfg)]
  have heffect := exec_verifyCrc kind hi lo cs s
  cases kind <;> exact ⟨rfl, rfl, heffect, hexample⟩

end Sys2Proof.Machine

/-!
The encoding of requests (spec/30_encoding.md): the decoder and the encoder are inverse to each other on the well-formed
operations (R70, R72, R74, R75), and what the decoder refuses and by which name (R72, R75, R76).

Everything is said first of one row of the opcode map: what its operand bytes decode to (`decodeOperands_operandBytes`,
`decodeOperands_eq_ok`) and which lengths it refuses (`decodeOperands_of_length_ne`). The four lemmas `decodeRequest_of_…`
take this to a whole request.
-/

namespace Sys2Proof.Machine

/-! ### Reading the operand bytes of each format (R70, R72) -/

@[simp] theorem readF1_singleton (o : Opcode) (a : Byte) (f : Byte → Except DecodeError Instr) :
    readF1 o [a] f = f a := rfl

@[simp] theorem readF2_pair (o : Opcode) (a b : Byte) (f : Byte → Byte → Except DecodeError Instr) :
    readF2 o [a, b] f = f a b := rfl

@[simp] theorem readF4_four (o : Opcode) (a b c d : Byte) (f : Byte → Byte → Byte → Byte → Except DecodeError Instr) :
    readF4 o [a, b, c, d] f = f a b c d := rfl

theorem readFV_cons_of_length (o : Opcode) (n : Byte) (data : List Byte) (f : List Byte → Except DecodeError Instr)
    (h : data.length = n.toNat) : readFV o (n :: data) f = f data := if_pos h

theorem readF0_of_length_ne (o : Opcode) (bytes : List Byte) (f : Except DecodeError Instr) (h : bytes.length ≠ 0) :
    readF0 o bytes f = lengthError o := by
  cases bytes with
  | nil => exact absurd rfl h
  | cons a rest => rfl

theorem readF1_of_length_ne (o : Opcode) (bytes : List Byte) (f : Byte → Except DecodeError Instr)
    (h : bytes.length ≠ 1) : readF1 o bytes f = lengthError o := by
  cases bytes with
  | nil => rfl
  | cons a rest => exact readF0_of_length_ne o rest (f a) fun hrest => h (congrArg (· + 1) hrest)

theorem readF2_of_length_ne (o : Opcode) (bytes : List Byte) (f : Byte → Byte → Except DecodeError Instr)
    (h : bytes.length ≠ 2) : readF2 o bytes f = lengthError o := by
  cases bytes with
  | nil => rfl
  | cons a rest => exact readF1_of_length_ne o rest (f a) fun hrest => h (congrArg (· + 1) hrest)

theorem readF4_of_length_ne (o : Opcode) (bytes : List Byte) (f : Byte → Byte → Byte → Byte → Except DecodeError Instr)
    (h : bytes.length ≠ 4) : readF4 o bytes f = lengthError o := by
  match bytes with
  | [] => rfl
  | [_] => rfl
  | a :: b :: rest => exact readF2_of_length_ne o rest (f a b) fun hrest => h (congrArg (· + 2) hrest)

theorem readFV_cons_of_length_ne (o : Opcode) (n : Byte) (data : List Byte) (f : List Byte → Except DecodeError Instr)
    (h : data.length ≠ n.toNat) : readFV o (n :: data) f = lengthError o := if_neg h

@[simp] theorem orOutOfDomain_some {α : Type} (o : Opcode) (x : α) (mk : α → Instr) :
    orOutOfDomain o (some x) mk = .ok (mk x) := rfl

theorem orOutOfDomain_of_none {α : Type} (o : Opcode) {v : Option α} (mk : α → Instr) (h : v = none) :
    orOutOfDomain o v mk = .error (.operandOutOfDomain o.code) := by
  rw [h]
  rfl

/-! ### The operand bytes of one row of the opcode map (R74, R75) -/

/-- The row of a well-formed operation reads its operand bytes back. -/
theorem decodeOperands_operandBytes (c : Config) (i : Instr) (h : i.wf c = true) :
    decodeOperands i.opcode (operandBytes i) = .ok i := by
  cases i with
  | crc8 data =>
    have hlen : data.length ≤ 255 := of_decide_eq_true h
    refine readFV_cons_of_length .crc8 _ data (fun data => .ok (.crc8 data)) ?_
    rw [BitVec.toNat_ofNat, Nat.mod_eq_of_lt (by omega)]
  | busReadByte | startMeasurement | verifyCrc | measure | measureAndCheck | convert | toPackedBcd | debounceTick
  | thermalSample => simp [decodeOperands, operandBytes, Instr.opcode]
  | busReset | busStart | busWriteByte | pollDone | readResult | readEvent | isOvertemp | setDuty | getDuty => rfl

/-- Operand bytes that a row reads are those of an operation of the row. -/
theorem decodeOperands_eq_ok (o : Opcode) (bytes : List Byte) (i : Instr) (h : decodeOperands o bytes = .ok i) :
    i.opcode = o ∧ operandBytes i = bytes := by
  cases o with
  | crc8 =>
    obtain ⟨n, data, rfl, hlen, hf⟩ := readFV_eq_ok _ _ _ _ h
    cases hf
    exact ⟨rfl, by simp [operandBytes, hlen]⟩
  | busReset | busStart | pollDone | readResult | isOvertemp | getDuty =>
    obtain ⟨rfl, hf⟩ := readF0_eq_ok _ _ _ _ h
    cases hf
    exact ⟨rfl, rfl⟩
  | busWriteByte | readEvent | setDuty =>
    obtain ⟨a, rfl, hf⟩ := readF1_eq_ok _ _ _ _ h
    cases hf
    exact ⟨rfl, rfl⟩
  | busReadByte =>
    obtain ⟨a, rfl, hf⟩ := readF1_eq_ok _ _ _ _ h
    obtain ⟨x, hx, rfl⟩ := orOutOfDomain_eq_ok _ _ _ _ hf
    exact ⟨rfl, by rw [operandBytes, boolByte_of_boolOperand a x hx]⟩
  | startMeasurement | measure | measureAndCheck =>
    obtain ⟨a, rfl, hf⟩ := readF1_eq_ok _ _ _ _ h
    obtain ⟨k, hk, rfl⟩ := orOutOfDomain_eq_ok _ _ _ _ hf
    exact ⟨rfl, by rw [operandBytes, kindByte_of_kindOperand a k hk]⟩
  | verifyCrc =>
    obtain ⟨a, hi, lo, cs, rfl, hf⟩ := readF4_eq_ok _ _ _ _ h
    obtain ⟨k, hk, rfl⟩ := orOutOfDomain_eq_ok _ _ _ _ hf
    exact ⟨rfl, by rw [operandBytes, kindByte_of_kindOperand a k hk]⟩
  | convert =>
    obtain ⟨a, b, d, e, rfl, hf⟩ := readF4_eq_ok _ _ _ _ h
    cases hf
    exact ⟨rfl, by simp [operandBytes]⟩
  | toPackedBcd | thermalSample =>
    obtain ⟨a, b, rfl, hf⟩ := readF2_eq_ok _ _ _ _ h
    cases hf
    exact ⟨rfl, by simp [operandBytes]⟩
  | debounceTick =>
    obtain ⟨ch, b, rfl, hf⟩ := readF2_eq_ok _ _ _ _ h
    obtain ⟨x, hx, rfl⟩ := orOutOfDomain_eq_ok _ _ _ _ hf
    exact ⟨rfl, by rw [operandBytes, boolByte_of_boolOperand b x hx]⟩

/-- A CRC8 that decodes has no more data bytes than its length byte can say (R70). -/
theorem length_le_of_decodeOperands_crc8 (o : Opcode) (bytes data : List Byte)
    (h : decodeOperands o bytes = .ok (.crc8 data)) : data.length ≤ 255 := by
  obtain ⟨rfl, _⟩ := decodeOperands_eq_ok o bytes _ h
  obtain ⟨n, data', _, hlen, hf⟩ := readFV_eq_ok _ _ _ _ h
  cases hf
  have := n.isLt
  omega

/-- The decoder's checks are all that a well-formed operation is asked. -/
theorem wf_of_decodeOperands (c : Config) (o : Opcode) (bytes : List Byte) (i : Instr)
    (h : decodeOperands o bytes = .ok i) (hdom : operandsInDomain c i = true) : i.wf c = true := by
  have hnb := c.nb_pos
  have hsample : 0 < 2 ^ c.sampleBits := by positivity
  cases i with
  | crc8 data => exact decide_eq_true (length_le_of_decodeOperands_crc8 o bytes data h)
  | debounceTick | readEvent | thermalSample =>
    simp only [operandsInDomain, Instr.wf, channelWf, sampleWf, decide_eq_true_eq] at hdom ⊢
    omega
  | _ => rfl

/-- A row refuses every length but its format's (R72). -/
theorem decodeOperands_of_length_ne (o : Opcode) (bytes : List Byte)
    (h : 1 + bytes.length ≠ o.format.length (bytes.headD 0)) : decodeOperands o bytes = lengthError o := by
  cases o with
  | crc8 =>
    cases bytes with
    | nil => rfl
    | cons n data =>
      refine readFV_cons_of_length_ne .crc8 n data (fun data => .ok (.crc8 data)) fun hlen => h ?_
      simp only [Opcode.format, Format.length, List.length_cons, List.headD_cons, hlen]
      omega
  | busReset | busStart | pollDone | readResult | isOvertemp | getDuty =>
    exact readF0_of_length_ne _ _ _ fun hlen => h (by rw [hlen]; rfl)
  | busWriteByte | busReadByte | startMeasurement | measure | measureAndCheck | readEvent | setDuty =>
    exact readF1_of_length_ne _ _ _ fun hlen => h (by rw [hlen]; rfl)
  | toPackedBcd | debounceTick | thermalSample =>
    exact readF2_of_length_ne _ _ _ fun hlen => h (by rw [hlen]; rfl)
  | verifyCrc | convert => exact readF4_of_length_ne _ _ _ fun hlen => h (by rw [hlen]; rfl)

/-! ### Whole requests -/

@[simp] theorem decode_code_cons (o : Opcode) (rest : List Byte) : decode (o.code :: rest) = decodeOperands o rest := by
  simp [decode]

/-- A byte string that decodes has an opcode of the map, whose row reads the operand bytes. -/
theorem decode_eq_ok (bytes : List Byte) (i : Instr) (h : decode bytes = .ok i) :
    ∃ o rest, bytes = o.code :: rest ∧ decodeOperands o rest = .ok i := by
  cases bytes with
  | nil => cases h
  | cons op rest =>
    simp only [decode] at h
    split at h
    · cases h
    · next o ho => exact ⟨o, rest, by rw [Opcode.code_of_ofByte op o ho], h⟩

theorem decodeRequest_eq_ok (c : Config) (bytes : List Byte) (i : Instr) (h : decodeRequest c bytes = .ok i) :
    decode bytes = .ok i ∧ operandsInDomain c i = true := by
  have hdom := operandsInDomain_of_decodeRequest c bytes i h
  cases hd : decode bytes with
  | error e => simp [decodeRequest, hd] at h
  | ok j =>
    simp only [decodeRequest, hd] at h
    split at h
    · exact ⟨h, hdom⟩
    · cases h

/-- An opcode byte of no row is reserved, whatever follows (R76). -/
theorem decodeRequest_of_no_row (c : Config) (op : Byte) (rest : List Byte) (h : ∀ o : Opcode, o.code ≠ op) :
    decodeRequest c (op :: rest) = .error (.reservedOpcode op) := by
  have hnone : Opcode.ofByte op = none := List.find?_eq_none.mpr fun o _ => by simpa using h o
  simp [decodeRequest, decode, hnone]

/-- What the row refuses is refused. -/
theorem decodeRequest_of_operands_error (c : Config) (o : Opcode) (rest : List Byte) (e : DecodeError)
    (h : decodeOperands o rest = .error e) : decodeRequest c (o.code :: rest) = .error e := by
  simp [decodeRequest, h]

/-- What the row reads is the request's operation where the configuration admits the operands. -/
theorem decodeRequest_of_operands_ok (c : Config) (o : Opcode) (rest : List Byte) (i : Instr)
    (h : decodeOperands o rest = .ok i) (hdom : operandsInDomain c i = true) :
    decodeRequest c (o.code :: rest) = .ok i := by
  simp [decodeRequest, h, hdom]

/-- What the row reads is refused where the configuration does not admit the operands (R75). -/
theorem decodeRequest_of_operands_outside (c : Config) (o : Opcode) (rest : List Byte) (i : Instr)
    (h : decodeOperands o rest = .ok i) (hdom : ¬ operandsInDomain c i = true) :
    decodeRequest c (o.code :: rest) = .error (.operandOutOfDomain o.code) := by
  obtain ⟨hop, _⟩ := decodeOperands_eq_ok o rest i h
  simp [decodeRequest, h, hdom, hop]

/-- A length that is not the one the opcode's format gives is refused (R72). -/
theorem decodeRequest_of_length_ne (c : Config) (o : Opcode) (rest : List Byte)
    (h : 1 + rest.length ≠ o.format.length (rest.headD 0)) :
    decodeRequest c (o.code :: rest) = .error (.wrongLength o.code) :=
  decodeRequest_of_operands_error c o rest _ (decodeOperands_of_length_ne o rest h)

/-! ### The round trips (R70, R72, R74, R75) -/

/-- Settles O1: the row of the operation reads its operand bytes back, and the configuration admits them. -/
theorem decodeInvertsEncode : Obligations.DecodeInvertsEncode := fun c i h =>
  decodeRequest_of_operands_ok c i.opcode (operandBytes i) i (decodeOperands_operandBytes c i h)
    (operandsInDomain_of_wf c i h)

/-- Settles O2: the opcode byte gives the row, and the row's operand bytes are those of the operation. -/
theorem decodedRequestIsItsEncoding : Obligations.DecodedRequestIsItsEncoding := by
  intro c bytes i h
  obtain ⟨hd, hdom⟩ := decodeRequest_eq_ok c bytes i h
  obtain ⟨o, rest, rfl, ho⟩ := decode_eq_ok bytes i hd
  obtain ⟨hop, hbytes⟩ := decodeOperands_eq_ok o rest i ho
  exact ⟨wf_of_decodeOperands c o rest i ho hdom, by rw [encode, hop, hbytes]⟩

/-! ### Refusals (R72, R75, R76) -/

/-- CRC8 with a length byte that does not count its data bytes is refused (R72, R75). -/
theorem decodeRequest_crc8_of_length_ne (c : Config) (n : Byte) (data : List Byte) (h : data.length ≠ n.toNat) :
    decodeRequest c (0x10 :: n :: data) = .error (.wrongLength 0x10) := by
  refine decodeRequest_of_length_ne c .crc8 (n :: data) fun hlen => h ?_
  simp only [Opcode.format, Format.length, List.length_cons, List.headD_cons] at hlen
  omega

/-- Only the length of format FV depends on the second byte (R70). -/
theorem format_length_of_ne_fv (f : Format) (h : f ≠ .fv) (x y : Byte) : f.length x = f.length y := by
  cases f with
  | fv => exact absurd rfl h
  | _ => rfl

/-- Settles O4: the eighteen pairs are the opcodes and the lengths of the rows whose format is not FV. -/
theorem wrongLengthDoesNotDecode : Obligations.WrongLengthDoesNotDecode := by
  refine ⟨fun c op len rest hmem hlen => ?_, fun c => decodeRequest_of_length_ne c .crc8 [] (by decide),
    decodeRequest_crc8_of_length_ne⟩
  have hrow : (op, len) ∈
      (Opcode.all.filter fun o => o.format ≠ .fv).map fun o => (o.code, o.format.length 0) := hmem
  obtain ⟨o, ho, hpair⟩ := List.mem_map.mp hrow
  obtain ⟨rfl, rfl⟩ := Prod.mk.inj hpair
  have hfixed : o.format ≠ .fv := of_decide_eq_true (List.mem_filter.mp ho).2
  refine decodeRequest_of_length_ne c o rest ?_
  rwa [format_length_of_ne_fv o.format hfixed _ 0]

/-- Settles O3: no opcode of the map lies in the eight ranges. -/
theorem reservedOpcodesDoNotDecode : Obligations.ReservedOpcodesDoNotDecode := by
  refine ⟨fun _ => rfl, fun c op rest hrange => decodeRequest_of_no_row c op rest fun o ho => ?_⟩
  subst ho
  revert hrange
  cases o <;> decide

/-- A channel that does not exist is refused by both operations that name one (R75). -/
theorem not_operandsInDomain_channel (c : Config) (ch : Byte) (h : c.nb ≤ ch.toNat) :
    (∀ b, ¬ operandsInDomain c (.debounceTick ch b) = true) ∧ ¬ operandsInDomain c (.readEvent ch) = true := by
  have hnb := c.nb_pos
  simp only [operandsInDomain, decide_eq_true_eq, forall_const, and_self]
  omega

/-- A sample that `SAMPLE_BITS` bits do not hold is refused (R75). -/
theorem not_operandsInDomain_sample (c : Config) (v : Word) (h : 2 ^ c.sampleBits ≤ v.toNat) :
    ¬ operandsInDomain c (.thermalSample v) = true := by
  have hpos : 0 < 2 ^ c.sampleBits := by positivity
  simp only [operandsInDomain, decide_eq_true_eq]
  omega

/-- DEBOUNCE_TICK on a channel that does not exist is refused whether or not its sample is 0 or 1. -/
theorem decodeRequest_debounceTick_of_nb_le (c : Config) (ch b : Byte) (h : c.nb ≤ ch.toNat) :
    decodeRequest c [0x50, ch, b] = .error (.operandOutOfDomain 0x50) := by
  cases hb : boolOperand b with
  | none => exact decodeRequest_of_operands_error c .debounceTick [ch, b] _ (orOutOfDomain_of_none _ _ hb)
  | some x =>
    refine decodeRequest_of_operands_outside c .debounceTick [ch, b] (.debounceTick ch x) ?_
      ((not_operandsInDomain_channel c ch h).1 x)
    simp [decodeOperands, hb]

/-- Settles O5: a single operand out of its domain is refused by its row, a channel or a sample by the configuration, and
the other operands by neither. -/
theorem operandDomainsAreChecked : Obligations.OperandDomainsAreChecked := by
  refine ⟨fun c a hi lo cs ch ha => ?_, fun c ch b hch => ?_, fun c hi lo hv => ?_, decodeRequest_crc8_of_length_ne,
    fun c a b d e => ?_⟩
  · have hbool (o : Opcode) (mk : Bool → Instr) := orOutOfDomain_of_none o mk (boolOperand_none a ha)
    have hkind (o : Opcode) (mk : Kind → Instr) := orOutOfDomain_of_none o mk (kindOperand_none a ha)
    exact ⟨decodeRequest_of_operands_error c .busReadByte [a] _ (hbool _ _),
      decodeRequest_of_operands_error c .startMeasurement [a] _ (hkind _ _),
      decodeRequest_of_operands_error c .verifyCrc [a, hi, lo, cs] _ (hkind _ _),
      decodeRequest_of_operands_error c .measure [a] _ (hkind _ _),
      decodeRequest_of_operands_error c .measureAndCheck [a] _ (hkind _ _),
      decodeRequest_of_operands_error c .debounceTick [ch, a] _ (hbool _ _)⟩
  · exact ⟨decodeRequest_debounceTick_of_nb_le c ch b hch,
      decodeRequest_of_operands_outside c .readEvent [ch] _ rfl (not_operandsInDomain_channel c ch hch).2⟩
  · rw [← joinBytes_toNat] at hv
    exact decodeRequest_of_operands_outside c .thermalSample [hi, lo] _ rfl (not_operandsInDomain_sample c _ hv)
  · exact ⟨decodeRequest_of_operands_ok c .busWriteByte [a] _ rfl rfl,
      decodeRequest_of_operands_ok c .verifyCrc [0, b, d, e] _ rfl rfl,
      decodeRequest_of_operands_ok c .verifyCrc [1, b, d, e] _ rfl rfl,
      decodeRequest_of_operands_ok c .convert [a, b, d, e] _ rfl rfl,
      decodeRequest_of_operands_ok c .toPackedBcd [a, b] _ rfl rfl,
      decodeRequest_of_operands_ok c .setDuty [a] _ rfl rfl⟩

/-! ### The words the spec writes out (R85) -/

/-- Bytes that are the request of a well-formed operation decode to it. -/
theorem decodeRequest_of_encode_eq (c : Config) {i : Instr} {bytes : List Byte} (hwf : i.wf c = true)
    (h : encode i = bytes) : decodeRequest c bytes = .ok i :=
  h ▸ decodeInvertsEncode c i hwf

/-- Settles O6: each word is the request of its operation, which is well formed since channel 0 exists (R6). -/
theorem specWordsDecode : Obligations.SpecWordsDecode := by
  intro c
  have hch : channelWf c 0 = true := decide_eq_true c.nb_pos
  exact ⟨decodeRequest_of_encode_eq c rfl (by decide), decodeRequest_of_encode_eq c rfl (by decide),
    decodeRequest_of_encode_eq c rfl (by decide), decodeRequest_of_encode_eq c rfl (by decide),
    decodeRequest_of_encode_eq c rfl (by decide), decodeRequest_of_encode_eq c rfl (by decide),
    decodeRequest_of_encode_eq c rfl (by decide), decodeRequest_of_encode_eq c rfl (by decide),
    decodeRequest_of_encode_eq c hch (by decide), decodeRequest_of_encode_eq c hch (by decide),
    decodeRequest_of_encode_eq c rfl (by decide), decodeRequest_of_encode_eq c rfl (by decide)⟩

end Sys2Proof.Machine

/-!
The check value (spec/41_crc.md): what CRC8 answers (R100), the forward register byte by byte (R101), the bit reversal
(R102), and what a bijective table sees (R106).

R106 goes backwards from equal check values: the reversal is undone, then the bytes after the change one by one, then
the table and the XOR at the change itself (`crc8_eq_iff`, `crcFwd_append_eq_iff`, `crcFwd_concat_eq_iff`).
-/

namespace Sys2Proof.Machine

/-! ### The bit reversal (R102) -/

theorem rev8_getLsbD (v : Byte) (i : Nat) (h : i < 8) : (rev8 v).getLsbD i = v.getLsbD (7 - i) := by
  rw [rev8, BitVec.getLsbD_reverse]
  simp [BitVec.getMsbD, h]

theorem rev8_involutive : Function.Involutive rev8 := fun _ => BitVec.reverse_reverse_eq

/-! ### The table -/

/-- A read gives the entry the index names, whatever the index (R101). -/
theorem crcTable_toList_getElem? (c : Config) (i : Byte) : c.crcTable.toList[i.toNat]? = some (tableRead c i) := by
  rw [Vector.getElem?_toList]
  exact Vector.getElem?_eq_getElem i.isLt

/-- The named property of R106, said of the read. -/
theorem tableRead_injective {c : Config} (hc : c.TableBijective) : Function.Injective (tableRead c) := by
  intro i j hij
  have hindex : i.toFin = j.toFin := hc i.toFin j.toFin hij
  exact BitVec.eq_of_toFin_eq hindex

/-! ### The forward register (R101) -/

@[simp] theorem crcFwd_nil (c : Config) : crcFwd c [] = 0x00 := rfl

@[simp] theorem crcFwd_concat (c : Config) (bytes : List Byte) (b : Byte) :
    crcFwd c (bytes ++ [b]) = tableRead c (crcFwd c bytes ^^^ b) := List.foldl_concat ..

theorem crcFwd_singleton (c : Config) (b : Byte) : crcFwd c [b] = tableRead c b := by
  simpa using crcFwd_concat c [] b

/-! ### The operation (R100) -/

/-- The request of CRC8 with a length byte that counts its data bytes (R70, R74). -/
theorem decode_crc8 (n : Byte) (data : List Byte) (h : data.length = n.toNat) :
    decode (0x10 :: n :: data) = .ok (.crc8 data) :=
  (decode_code_cons .crc8 (n :: data)).trans (readFV_cons_of_length .crc8 n data (fun data => .ok (.crc8 data)) h)

/-- CRC8 writes its response and nothing else, in every state. -/
theorem exec_crc8 (data : List Byte) (s : State) :
    exec (.crc8 data) s = .next { s with mainResponse := [0x00, crc8 s.cfg data] } := rfl

/-- Settles O19: the length byte holds every length up to 255, and the other clauses are the rules above. -/
theorem crc8Result : Obligations.Crc8Result := by
  refine ⟨fun data => ⟨rfl, fun hlen => decode_crc8 _ data ?_⟩, crcTable_toList_getElem?, crcFwd_nil,
    crcFwd_concat, rev8_getLsbD, exec_crc8⟩
  rw [BitVec.toNat_ofNat, Nat.mod_eq_of_lt (by omega)]

/-- Settles O20: the reversal of the register's seed, and of the one entry read from it (R103). -/
theorem crc8OfShortSequences : Obligations.Crc8OfShortSequences := fun c =>
  ⟨show rev8 (crcFwd c []) = 0x00 by rw [crcFwd_nil]; decide, fun b => congrArg rev8 (crcFwd_singleton c b)⟩

/-! ### What a bijective table sees (R106) -/

/-- The reversal hides nothing: equal check values come from equal registers. -/
theorem crc8_eq_iff (c : Config) (xs ys : List Byte) : crc8 c xs = crc8 c ys ↔ crcFwd c xs = crcFwd c ys :=
  rev8_involutive.injective.eq_iff

/-- The registers after a last byte agree exactly when the table indices did. -/
theorem crcFwd_concat_eq_iff {c : Config} (hc : c.TableBijective) (xs ys : List Byte) (a b : Byte) :
    crcFwd c (xs ++ [a]) = crcFwd c (ys ++ [b]) ↔ crcFwd c xs ^^^ a = crcFwd c ys ^^^ b := by
  rw [crcFwd_concat, crcFwd_concat, (tableRead_injective hc).eq_iff]

/-- The same bytes at the end neither separate two registers nor bring them together. -/
theorem crcFwd_append_eq_iff {c : Config} (hc : c.TableBijective) (xs ys back : List Byte) :
    crcFwd c (xs ++ back) = crcFwd c (ys ++ back) ↔ crcFwd c xs = crcFwd c ys := by
  induction back using List.reverseRecOn with
  | nil => simp only [List.append_nil]
  | append_singleton back b ih =>
    rw [← List.append_assoc, ← List.append_assoc, crcFwd_concat_eq_iff hc, BitVec.xor_left_inj, ih]

/-- Settles O21: with all else equal, the check values agree only if the two bytes do. -/
theorem crc8SeesOneByteChange : Obligations.Crc8SeesOneByteChange := by
  intro c front back a b hc hab heq
  have hfwd : crcFwd c (front ++ [a] ++ back) = crcFwd c (front ++ [b] ++ back) := by
    simpa using (crc8_eq_iff c _ _).mp heq
  have hindex : crcFwd c front ^^^ a = crcFwd c front ^^^ b :=
    (crcFwd_concat_eq_iff hc front front a b).mp ((crcFwd_append_eq_iff hc _ _ back).mp hfwd)
  exact hab ((BitVec.xor_right_inj _).mp hindex)

end Sys2Proof.Machine

/-!
The bus engine (spec/42_bitbang.md): the request of each of the four operations, its actions on any bus (R113, R114,
R116, R118), and its response.

What a list of actions does to a bus is `run_spec`, here read off for the four lists: `run_start` and `run_reset` take no
sample, `run_write` takes the acknowledge, and `run_read` takes eight bits, which are those of one byte.
-/

namespace Sys2Proof.Machine

/-! ### The actions of the four operations -/

/-- BUS_START's actions, against any peer (R113). -/
theorem run_start (c : Config) (b : Bus) :
    b.run (startProgram c) = ({ b with
      dataDrv := true
      sck := false
      trace := b.trace ++ startTrace c }, []) := by
  rw [run_without_samples (startProgram c) b (startProgram_released c _) rfl, startProgram_pins, startProgram_fill]

/-- BUS_RESET's actions, against any peer (R114). -/
theorem run_reset (c : Config) (b : Bus) :
    b.run (resetProgram c) = ({ b with
      dataDrv := true
      sck := false
      trace := b.trace ++ resetTrace c }, []) := by
  rw [run_without_samples (resetProgram c) b (resetProgram_released c _) rfl, resetProgram_pins, resetProgram_fill]

/-- BUS_WRITE_BYTE's actions: the one sample is the peer's answer in the ninth pulse (R116). -/
theorem run_write (c : Config) (value : Byte) (b : Bus) :
    ∃ nack, PeerAnswers b [nack] ∧ b.run (writeProgram c value) = ({
      dataDrv := true
      sck := false
      trace := b.trace ++ writeTrace c value nack
      peer := b.peer.drop 1
      draws := b.draws + 1 }, [nack]) := by
  obtain ⟨bits, hlen, hpeer, hrun⟩ := run_spec (writeProgram c value) b (writeProgram_released c value _)
  rw [writeProgram_samples] at hlen hrun
  obtain ⟨nack, rfl⟩ := List.length_eq_one_iff.mp hlen
  exact ⟨nack, hpeer, by rw [hrun, writeProgram_pins, writeProgram_fill]⟩

/-- BUS_READ_BYTE's actions: the eight samples are the bits of one byte, bit 7 first (R118). -/
theorem run_read (c : Config) (sendAck : Bool) (b : Bus) :
    ∃ value, PeerAnswers b (bitsOfByte value) ∧ b.run (readProgram c sendAck) = ({
      dataDrv := true
      sck := false
      trace := b.trace ++ readTrace c value sendAck
      peer := b.peer.drop 8
      draws := b.draws + 8 }, bitsOfByte value) := by
  obtain ⟨bits, hlen, hpeer, hrun⟩ := run_spec (readProgram c sendAck) b (readProgram_released c sendAck _)
  rw [readProgram_samples] at hlen hrun
  rw [← bits_of_byteOfBits bits hlen] at hpeer hrun
  exact ⟨byteOfBits bits, hpeer, by rw [hrun, readProgram_pins, readProgram_fill]⟩

/-! ### The operations -/

/-- Settles O22: the lines and the trace after BUS_START's actions, and its response. -/
theorem busStartEffect : Obligations.BusStartEffect := by
  refine ⟨decode_code_cons .busStart [], rfl, fun s => ?_⟩
  rw [exec, execBusStart, run_start]
  rfl

/-- Settles O23: the same for BUS_RESET, which also ends the measurement in flight. -/
theorem busResetEffect : Obligations.BusResetEffect := by
  refine ⟨decode_code_cons .busReset [], rfl, fun s => ?_⟩
  rw [exec, execBusReset, run_reset]
  rfl

/-- Settles O24: the response holds the sampled level itself (R80). -/
theorem busWriteByteEffect : Obligations.BusWriteByteEffect := by
  intro value s
  obtain ⟨nack, hpeer, hrun⟩ := run_write s.cfg value s.bus
  refine ⟨decode_code_cons .busWriteByte [value], rfl, nack, hpeer, ?_⟩
  rw [exec, execBusWriteByte, hrun]
  rfl

/-- The request of BUS_READ_BYTE, with its operand's byte (R75). -/
theorem decode_busReadByte (sendAck : Bool) : decode [0x23, boolByte sendAck] = .ok (.busReadByte sendAck) :=
  calc decode [0x23, boolByte sendAck]
      = orOutOfDomain .busReadByte (boolOperand (boolByte sendAck)) .busReadByte := decode_code_cons .busReadByte _
    _ = .ok (.busReadByte sendAck) := by rw [boolOperand_boolByte, orOutOfDomain_some]

/-- Settles O25: the response holds the byte whose bits were sampled. -/
theorem busReadByteEffect : Obligations.BusReadByteEffect := by
  intro sendAck s
  obtain ⟨value, hpeer, hrun⟩ := run_read s.cfg sendAck s.bus
  refine ⟨decode_busReadByte sendAck, rfl, value, hpeer, ?_⟩
  simp only [exec, execBusReadByte, hrun, byteOfBits_bitsOfByte]
  rfl

end Sys2Proof.Machine

/-!
SensorDriver (spec/43_sensor.md): the requests that are served in one step (R134, R136, R138), and a MEASURE or
MEASURE_AND_CHECK in progress (R140 to R145).

Two ideas carry the operation in progress. `microStepsLeft` bounds the micro-steps it still has, and every micro-step lowers
it, so that it ends whatever the peer answers (R144). And its micro-steps come to what the pseudocode of R140 gives as one
piece of work, in a number that the poll loop's outcome fixes (`advance_acknowledged`); what happens against a peer whose
answers are settled is then the pseudocode evaluated on them.
-/

namespace Sys2Proof.Machine

/-! ### The phases that accept a request (R132) -/

theorem acceptsStart_iff (p : Phase) : acceptsStart p = true ↔ p = .idle ∨ p = .done := by
  cases p <;> simp [acceptsStart]

theorem acceptsPoll_iff (p : Phase) : acceptsPoll p = true ↔ p = .started ∨ p = .polling := by
  cases p <;> simp [acceptsPoll]

theorem acceptsRead_iff (p : Phase) : acceptsRead p = true ↔ p = .read := by
  cases p <;> simp [acceptsRead]

/-! ### Actions against any peer -/

/-- One sample: the wired-AND of the block's drive and the peer's answer (R64). -/
theorem run_sample (b : Bus) :
    ∃ x, PeerAnswers b [x] ∧ b.run [.sample] = ({ b with
      trace := b.trace ++ [.s (b.dataDrv && x)]
      peer := b.peer.drop 1
      draws := b.draws + 1 }, [b.dataDrv && x]) := by
  refine ⟨b.peerNow, peerAnswers_cons b [] (by simp), ?_⟩
  rw [List.drop_one]
  rfl

/-- READ_RESULT's actions: the twenty-four samples are the bits of three bytes (R138). -/
theorem run_result (c : Config) (b : Bus) :
    ∃ hi lo cs, PeerAnswers b (resultBits hi lo cs) ∧ b.run (resultProgram c) = ({
      dataDrv := true
      sck := false
      trace := b.trace ++ (readTrace c hi true ++ readTrace c lo true ++ readTrace c cs false)
      peer := b.peer.drop 24
      draws := b.draws + 24 }, resultBits hi lo cs) := by
  obtain ⟨bits, hlen, hpeer, hrun⟩ := run_spec (resultProgram c) b (resultProgram_released c _)
  rw [resultProgram_samples] at hlen hrun
  rw [eq_resultBits bits hlen] at hpeer hrun
  exact ⟨_, _, _, hpeer, by rw [hrun, resultProgram_pins, resultProgram_fill]⟩

/-! ### The requests served in one step -/

/-- Settles O28: the acknowledge, the peer's answer in the ninth pulse, decides the phase and the response. -/
theorem startMeasurementEffect : Obligations.StartMeasurementEffect := by
  intro kind s
  refine ⟨by cases kind <;> rfl, rfl, fun hphase => ?_, fun hidle hdone => ?_⟩
  · obtain ⟨nack, hpeer, hrun⟩ := run_command s.cfg kind s.bus
    refine ⟨nack, hpeer, ?_⟩
    rw [exec, execStartMeasurement, if_pos ((acceptsStart_iff _).mpr hphase), hrun]
    cases kind <;> cases nack <;> rfl
  · rw [exec, execStartMeasurement, if_neg (by simp [acceptsStart_iff, hidle, hdone])]
    rfl

/-- Settles O29: the level of the line, low when ready, decides the phase and the response. -/
theorem pollDoneEffect : Obligations.PollDoneEffect := by
  refine ⟨rfl, rfl, fun s => ⟨fun hphase => ?_, fun hstarted hpolling => ?_⟩⟩
  · obtain ⟨x, hpeer, hrun⟩ := run_sample s.bus
    refine ⟨x, hpeer, ?_⟩
    rw [exec, execPollDone, if_pos ((acceptsPoll_iff _).mpr hphase), hrun]
    cases s.bus.dataDrv && x <;> rfl
  · rw [exec, execPollDone, if_neg (by simp [acceptsPoll_iff, hstarted, hpolling])]
    rfl

/-- Settles O30: the response holds the three bytes whose bits were sampled. -/
theorem readResultEffect : Obligations.ReadResultEffect := by
  refine ⟨rfl, rfl, fun s => ⟨fun hphase => ?_, fun hread => ?_⟩⟩
  · obtain ⟨hi, lo, cs, hpeer, hrun⟩ := run_result s.cfg s.bus
    refine ⟨hi, lo, cs, hpeer, ?_⟩
    rw [exec, execReadResult, if_pos ((acceptsRead_iff _).mpr hphase), hrun]
    simp only [resultHi_resultBits, resultLo_resultBits, resultCs_resultBits]
    rfl
  · rw [exec, execReadResult, if_neg (by simp [acceptsRead_iff, hread])]
    rfl

/-! ### MEASURE and MEASURE_AND_CHECK accepted or refused (R132) -/

theorem acceptMeasure_accepted (checked : Bool) (kind : Kind) (s : State) (h : acceptsStart s.sensor.phase = true) :
    acceptMeasure checked kind s = { s with
      sensor := { s.sensor with kind := kind, running := some ⟨checked, .command, commandProgram s.cfg kind, []⟩ }
      mainResponse := [] } := if_pos h

theorem acceptMeasure_refused (checked : Bool) (kind : Kind) (s : State) (h : acceptsStart s.sensor.phase = false) :
    acceptMeasure checked kind s = { s with mainResponse := [0xFE] } := by
  rw [acceptMeasure, h]
  rfl

/-- Settles O32: both operations make the same first check. -/
theorem measureIsAcceptedOrRefused : Obligations.MeasureIsAcceptedOrRefused := by
  refine fun kind s => ⟨fun hphase => ?_, fun hidle hdone => ?_⟩
  · have haccepts := (acceptsStart_iff _).mpr hphase
    exact ⟨congrArg _ (acceptMeasure_accepted false kind s haccepts),
      congrArg _ (acceptMeasure_accepted true kind s haccepts)⟩
  · have hrefuses : acceptsStart s.sensor.phase = false := by
      simp [← Bool.not_eq_true, acceptsStart_iff, hidle, hdone]
    exact ⟨congrArg _ (acceptMeasure_refused false kind s hrefuses),
      congrArg _ (acceptMeasure_refused true kind s hrefuses)⟩

/-! ### A micro-step (R141) -/

/-- What follows a stage's last micro-step makes no bus action, so the micro-step is its own action and no other. -/
theorem advance_bus (s : State) (m : Measure) (op : BusOp) (rest : List BusOp) (hrun : s.sensor.running = some m)
    (htodo : m.todo = op :: rest) : (advance s).bus = (s.bus.run [op]).1 := by
  have hstep : (busStep op (s.bus, m.got)).1 = (s.bus.run [op]).1 := by cases op <;> rfl
  cases rest with
  | nil => rw [advance_last s m op hrun htodo, endStage_bus, hstep]
  | cons op' rest => rw [advance_inside s m op op' rest hrun htodo, hstep]

/-- Settles O33: one action is one entry of the trace. -/
theorem microStepIsOneBusAction : Obligations.MicroStepIsOneBusAction := by
  intro s m op rest hrun htodo
  have hbus := advance_bus s m op rest hrun htodo
  exact ⟨hbus, hbus ▸ runFrom_trace_length [op] (s.bus, []), advance_duty s, advance_inputs s⟩

/-! ### The operation in progress ends (R144) -/

/-- At most so many micro-steps follow a stage, after so many ready checks: a wait for the check just made, a check and
a wait for every check left, and the three bytes. -/
def stepsAfterStage (pollMax poll : Nat) : Stage → Nat
  | .command => 2 * pollMax + 147
  | .check => 2 * (pollMax - poll) + 146
  | .pause => 2 * (pollMax - poll) + 147
  | .read => 0

/-- At most so many micro-steps are left of the operation. -/
def microStepsLeft (s : State) (m : Measure) : Nat :=
  m.todo.length + stepsAfterStage s.cfg.pollMax s.sensor.poll m.stage

/-- No operation is in progress, and the last one gave its response. -/
structure Answered (s : State) : Prop where
  not_running : s.sensor.running = none
  answered : s.mainResponse ≠ []

/-- The operation has ended, or goes on with at most `n` micro-steps. -/
def EndsIn (n : Nat) (s : State) : Prop :=
  Answered s ∨ ∃ m, s.sensor.running = some m ∧ microStepsLeft s m ≤ n

theorem finishMeasure_answered (phase : Phase) (st : Status) (l : List Byte) (s : State) :
    Answered (finishMeasure phase st l s) := ⟨rfl, List.cons_ne_nil _ _⟩

theorem EndsIn.mono {n n' : Nat} {s : State} (h : EndsIn n s) (hle : n ≤ n') : EndsIn n' s :=
  h.imp_right fun ⟨m, hrun, hleft⟩ => ⟨m, hrun, hleft.trans hle⟩

/-- A stage entered has its own micro-steps and those that follow it. -/
theorem enterStage_endsIn (n : Nat) (m : Measure) (stage : Stage) (s : State)
    (h : (stageStart s.cfg s.sensor.kind m.checked stage).todo.length +
      stepsAfterStage s.cfg.pollMax s.sensor.poll stage ≤ n) : EndsIn n (enterStage m stage s) :=
  .inr ⟨_, rfl, h⟩

/-- What follows a stage keeps to its bound. -/
theorem endStage_endsIn (m : Measure) (s : State) (hstage : StageOk s.cfg s.sensor.phase s.sensor.poll m.stage) :
    EndsIn (stepsAfterStage s.cfg.pollMax s.sensor.poll m.stage) (endStage m s) := by
  obtain ⟨checked, stage, todo, got⟩ := m
  cases stage with
  | command =>
    simp only [endStage]
    split
    · exact .inl (finishMeasure_answered _ _ _ _)
    · exact enterStage_endsIn _ _ _ _ (by simp [stageStart, stepsAfterStage]; omega)
  | check =>
    obtain ⟨_, hlt⟩ := hstage
    simp only [endStage]
    split <;> exact enterStage_endsIn _ _ _ _ (by simp [stageStart, stepsAfterStage]; omega)
  | pause =>
    simp only [endStage]
    split
    · exact .inl (finishMeasure_answered _ _ _ _)
    · exact enterStage_endsIn _ _ _ _ (by simp [stageStart, stepsAfterStage]; omega)
  | read =>
    simp only [endStage]
    split <;> exact .inl (finishMeasure_answered _ _ _ _)

/-- A micro-step leaves one less. -/
theorem advance_endsIn (n : Nat) (s : State) (m : Measure) (hinv : MainInv s) (hrun : s.sensor.running = some m)
    (hleft : microStepsLeft s m ≤ n + 1) : EndsIn n (advance s) := by
  obtain ⟨hne, _, _, _, hstage⟩ := (measureOk_iff s m).mp (hinv.measure_ok m hrun)
  unfold microStepsLeft at hleft
  match htodo : m.todo with
  | [] => exact absurd htodo hne
  | [op] =>
    rw [htodo, List.length_singleton] at hleft
    rw [advance_last s m op hrun htodo]
    refine EndsIn.mono (endStage_endsIn _ _ ?_) ?_
    · exact hstage
    · dsimp only
      omega
  | op :: op' :: rest =>
    rw [htodo, List.length_cons] at hleft
    rw [advance_inside s m op op' rest hrun htodo]
    refine .inr ⟨_, rfl, ?_⟩
    simp only [microStepsLeft]
    omega

/-- So many micro-steps end the operation. -/
theorem answered_within (n : Nat) (s : State) (hinv : MainInv s) (h : EndsIn n s) :
    ∃ k ≤ n, Answered (advance^[k] s) := by
  induction n generalizing s with
  | zero =>
    obtain hdone | ⟨m, hrun, hleft⟩ := h
    · exact ⟨0, le_rfl, hdone⟩
    · obtain ⟨hne, _⟩ := hinv.measure_ok m hrun
      have hpos := List.length_pos_of_ne_nil hne
      unfold microStepsLeft at hleft
      omega
  | succ n ih =>
    obtain hdone | ⟨m, hrun, hleft⟩ := h
    · exact ⟨0, Nat.zero_le _, hdone⟩
    · obtain ⟨k, hk, hend⟩ := ih (advance s) (advance_mainInv s hinv) (advance_endsIn n s m hinv hrun hleft)
      exact ⟨k + 1, Nat.succ_le_succ hk, hend⟩

/-- A whole stage and what follows it are within the bound of R144. -/
theorem stage_le_measureBound (c : Config) (kind : Kind) (checked : Bool) (poll : Nat) (stage : Stage) :
    (stageStart c kind checked stage).todo.length + stepsAfterStage c.pollMax poll stage ≤ measureBound c := by
  cases stage <;> simp [stageStart, stepsAfterStage, measureBound] <;> omega

/-- An operation in progress has the end of a stage left, and what follows that. -/
theorem microStepsLeft_le (s : State) (m : Measure) (h : MeasureOk s m) : microStepsLeft s m ≤ measureBound s.cfg := by
  obtain ⟨_, hsuffix, _⟩ := h
  exact (Nat.add_le_add_right hsuffix.length_le _).trans (stage_le_measureBound s.cfg _ _ _ _)

/-- Settles O35: the micro-steps left are within the bound, and each one taken lowers them. -/
theorem measureAlwaysEnds : Obligations.MeasureAlwaysEnds := by
  intro s hinv hin hne
  obtain ⟨_, hmain⟩ := (inv_iff s).mp hinv
  obtain ⟨m, hrun⟩ := Option.ne_none_iff_exists'.mp hne
  have hleft := microStepsLeft_le s m (hmain.measure_ok m hrun)
  obtain ⟨n, hn, hidle, hanswer⟩ := answered_within _ s hmain (.inr ⟨m, hrun, hleft⟩)
  exact ⟨n, _, hn, run_idle n s hin, hidle, hanswer⟩

/-! ### The poll loop (R140) -/

theorem pollLoop_of_ready (c : Config) (k : Nat) (b : Bus) (poll : Nat) (h : readyOf (b.run [.sample]).2 = true) :
    pollLoop c (k + 1) b poll = ((b.run [.sample]).1, poll + 1, true) := if_pos h

theorem pollLoop_of_not_ready (c : Config) (k : Nat) (b : Bus) (poll : Nat) (h : readyOf (b.run [.sample]).2 = false) :
    pollLoop c (k + 1) b poll = pollLoop c k ((b.run [.sample]).1.run [.wait c.pollIntervalUs]).1 (poll + 1) := by
  rw [pollLoop, h]
  rfl

/-- The micro-steps from the first ready check to the response, after so many checks: every failed check has its wait, a
successful one is followed by the three bytes. -/
def pollSteps (checks : Nat) (ready : Bool) : Nat := if ready then 2 * checks + 146 else 2 * checks

theorem pollSteps_succ (checks : Nat) (ready : Bool) : pollSteps (checks + 1) ready = pollSteps checks ready + 2 := by
  unfold pollSteps
  split <;> omega

/-- From a ready check on, the micro-steps come to what follows the poll loop. -/
theorem advance_polls (s : State) (checked : Bool) (k : Nat) (b : Bus) (phase : Phase) (poll : Nat)
    (hmax : poll + (k + 1) = s.cfg.pollMax) :
    ∃ checks ≤ k + 1, (pollLoop s.cfg (k + 1) b poll).2.1 = poll + checks ∧
      advance^[pollSteps checks (pollLoop s.cfg (k + 1) b poll).2.2] (inStage s checked .check b phase poll) =
        afterPolls checked s (pollLoop s.cfg (k + 1) b poll) := by
  cases hready : readyOf (b.run [.sample]).2 with
  | true =>
    refine ⟨1, by omega, by rw [pollLoop_of_ready _ _ _ _ hready], ?_⟩
    rw [pollLoop_of_ready _ _ _ _ hready]
    show advance^[147 + 1] _ = _
    rw [Function.iterate_succ_apply, check_ready s checked b phase poll hready, read_stage]
  | false =>
    rw [pollLoop_of_not_ready _ _ _ _ hready]
    have hcheck := check_not_ready s checked b phase poll hready
    cases k with
    | zero =>
      refine ⟨1, le_rfl, rfl, ?_⟩
      show advance (advance _) = _
      rw [hcheck, hmax, pause_timeout]
      rfl
    | succ k =>
      obtain ⟨checks, hle, hpolls, hend⟩ := advance_polls s checked k
        ((b.run [.sample]).1.run [.wait s.cfg.pollIntervalUs]).1 .polling (poll + 1) (by omega)
      refine ⟨checks + 1, by omega, by omega, ?_⟩
      rw [pollSteps_succ, Function.iterate_add_apply]
      show advance^[_] (advance (advance _)) = _
      rw [hcheck, pause_again _ _ _ _ _ (by omega), hend]

/-! ### The micro-steps come to the state of the pseudocode (R140, R142) -/

/-- What accepting the request writes besides the progress of the operation. -/
def accepted (kind : Kind) (s : State) : State :=
  { s with sensor := { s.sensor with kind := kind }, mainResponse := [] }

theorem acceptMeasure_eq_inStage (checked : Bool) (kind : Kind) (s : State) (h : acceptsStart s.sensor.phase = true) :
    acceptMeasure checked kind s =
      inStage (accepted kind s) checked .command s.bus s.sensor.phase s.sensor.poll := by
  rw [acceptMeasure_eq, if_pos h]
  rfl

/-- The first 60 micro-steps: without an acknowledge the operation ends, with one it comes to its first ready check. -/
theorem advance_command (checked : Bool) (kind : Kind) (s : State) (b : Bus) (nack : Bool)
    (haccepts : acceptsStart s.sensor.phase = true) (hcommand : s.bus.run (commandProgram s.cfg kind) = (b, [nack])) :
    advance^[60] (acceptMeasure checked kind s) = if nack then { s with
        bus := b
        sensor := { s.sensor with phase := .idle, kind := kind, running := none }
        mainResponse := [0x01] }
      else inStage (accepted kind s) checked .check b .started 0 := by
  rw [acceptMeasure_eq_inStage checked kind s haccepts, command_stage]
  simp only [accepted, hcommand]
  cases nack <;> rfl

/-- A peer that acknowledges: the poll loop's outcome gives the number of micro-steps. -/
theorem advance_acknowledged (checked : Bool) (kind : Kind) (s : State) (b b' : Bus) (polls : Nat) (ready : Bool)
    (haccepts : acceptsStart s.sensor.phase = true) (hcommand : s.bus.run (commandProgram s.cfg kind) = (b, [false]))
    (hpolls : pollLoop s.cfg s.cfg.pollMax b 0 = (b', polls, ready)) :
    polls ≤ s.cfg.pollMax ∧ advance^[60 + pollSteps polls ready] (acceptMeasure checked kind s) =
      afterPolls checked (accepted kind s) (b', polls, ready) := by
  obtain ⟨k, hk⟩ := Nat.exists_eq_succ_of_ne_zero (Nat.ne_of_gt s.cfg.pollMax_pos)
  obtain ⟨checks, hle, hchecks, hend⟩ := advance_polls (accepted kind s) checked k b .started 0
    ((Nat.zero_add _).trans hk.symm)
  rw [hk] at hpolls
  simp only [accepted, hpolls, Nat.zero_add] at hchecks hend
  subst hchecks
  rw [hk, Nat.add_comm 60, Function.iterate_add_apply, advance_command checked kind s b false haccepts hcommand]
  exact ⟨hle, hend⟩

/-- The pseudocode, the command byte being acknowledged. -/
theorem measureAtOnce_acknowledged (checked : Bool) (kind : Kind) (s : State) (b : Bus)
    (haccepts : acceptsStart s.sensor.phase = true) (hcommand : s.bus.run (commandProgram s.cfg kind) = (b, [false])) :
    measureAtOnce checked kind s = afterPolls checked (accepted kind s) (pollLoop s.cfg s.cfg.pollMax b 0) := by
  rw [measureAtOnce, if_pos haccepts, hcommand]
  rfl

/-- Within the bound of R144 an operation comes to the state of its pseudocode: at once when it is refused, after the
command byte when that is not acknowledged, and otherwise after the checks that the poll loop makes. -/
theorem advance_to_measureAtOnce (checked : Bool) (kind : Kind) (s : State) :
    ∃ n ≤ measureBound s.cfg, advance^[n] (acceptMeasure checked kind s) = measureAtOnce checked kind s := by
  cases haccepts : acceptsStart s.sensor.phase with
  | false => exact ⟨0, Nat.zero_le _, by simp [acceptMeasure, measureAtOnce, haccepts]⟩
  | true =>
    obtain ⟨nack, _, hcommand⟩ := run_command s.cfg kind s.bus
    cases nack with
    | true =>
      refine ⟨60, by unfold measureBound; omega, ?_⟩
      rw [advance_command checked kind s _ true haccepts hcommand, measureAtOnce, if_pos haccepts, hcommand]
      rfl
    | false =>
      obtain ⟨hle, hend⟩ := advance_acknowledged checked kind s _ _ _ _ haccepts hcommand rfl
      refine ⟨_, ?_, hend.trans (measureAtOnce_acknowledged checked kind s _ haccepts hcommand).symm⟩
      unfold pollSteps measureBound
      split <;> omega

/-- With nothing presented the run of an accepted operation is so many of its micro-steps. -/
theorem run_acceptMeasure (n : Nat) (checked : Bool) (kind : Kind) (s : State) (hin : s.inputs = []) :
    core.run n (acceptMeasure checked kind s) = .next (advance^[n] (acceptMeasure checked kind s)) :=
  run_idle n _ ((acceptMeasure_inputs checked kind s).trans hin)

/-- Settles O34, for both operations alike. -/
theorem measureMicroStepsRefinePseudocode : Obligations.MeasureMicroStepsRefinePseudocode := by
  intro kind s hin
  have hrefines (checked : Bool) : ∃ n ≤ measureBound s.cfg,
      core.run n (acceptMeasure checked kind s) = .next (measureAtOnce checked kind s) := by
    obtain ⟨n, hn, hend⟩ := advance_to_measureAtOnce checked kind s
    exact ⟨n, hn, by rw [run_acceptMeasure n checked kind s hin, hend]⟩
  obtain ⟨n, hn, hrun⟩ := hrefines false
  obtain ⟨n', hn', hrun'⟩ := hrefines true
  exact ⟨⟨_, n, rfl, hn, hrun⟩, ⟨_, n', rfl, hn', hrun'⟩⟩

/-! ### Against a peer whose answers are settled -/

theorem failedChecksTrace_succ (c : Config) (fails : Nat) :
    failedChecksTrace c (fails + 1) = .s true :: .w c.pollIntervalUs :: failedChecksTrace c fails := rfl

theorem run_wait (us : Nat) (b : Bus) : b.run [.wait us] = ({ b with trace := b.trace ++ [.w us] }, []) := rfl

/-- Failed checks against settled answers: each is one sample and one wait, and the loop goes on. -/
theorem pollLoop_failed_checks (c : Config) (fails k : Nat) (b : Bus) (poll : Nat) (later : List Bool)
    (hdata : b.dataDrv = true) (hpeer : b.peer = List.replicate fails true ++ later) :
    pollLoop c (fails + k) b poll = pollLoop c k { b with
      trace := b.trace ++ failedChecksTrace c fails
      peer := later
      draws := b.draws + fails } (poll + fails) := by
  induction fails generalizing b poll with
  | zero =>
    obtain rfl : b.peer = later := hpeer
    simp [failedChecksTrace]
  | succ fails ih =>
    have hcheck := run_check_settled b true _ hdata hpeer
    rw [Nat.succ_add, pollLoop_of_not_ready c _ b poll (by rw [hcheck]; rfl), hcheck]
    refine Eq.trans (ih _ (poll + 1) ?_ ?_) ?_
    · exact hdata
    · rfl
    · simp [run_wait, failedChecksTrace_succ, Nat.add_assoc, Nat.add_comm 1 fails]

/-- A peer that is not ready at any check: the loop ends when its checks are used up. -/
theorem pollLoop_settled_timeout (c : Config) (checks : Nat) (b : Bus) (later : List Bool) (hdata : b.dataDrv = true)
    (hpeer : b.peer = List.replicate checks true ++ later) :
    pollLoop c checks b 0 = ({ b with
      trace := b.trace ++ failedChecksTrace c checks
      peer := later
      draws := b.draws + checks }, checks, false) := by
  have hloop := pollLoop_failed_checks c checks 0 b 0 later hdata hpeer
  rwa [Nat.zero_add] at hloop

/-- A peer that is ready after fewer failed checks: the loop ends with the check that finds it so. -/
theorem pollLoop_settled_ready (c : Config) (checks fails : Nat) (b : Bus) (later : List Bool) (hlt : fails < checks)
    (hdata : b.dataDrv = true) (hpeer : b.peer = List.replicate fails true ++ false :: later) :
    pollLoop c checks b 0 = ({ b with
      trace := b.trace ++ failedChecksTrace c fails ++ [.s false]
      peer := later
      draws := b.draws + fails + 1 }, fails + 1, true) := by
  obtain ⟨k, rfl⟩ := Nat.exists_eq_add_of_lt hlt
  have hcheck := run_check_settled { b with
    trace := b.trace ++ failedChecksTrace c fails
    peer := false :: later
    draws := b.draws + fails } false later hdata rfl
  rw [Nat.add_assoc, pollLoop_failed_checks c fails (k + 1) b 0 _ hdata hpeer, Nat.zero_add,
    pollLoop_of_ready c k _ fails (by rw [hcheck]; rfl), hcheck]

/-- Without a successful check the operation ends in TIMEOUT (R145). -/
theorem afterPolls_timeout (checked : Bool) (s : State) (b : Bus) (polls : Nat) :
    afterPolls checked s (b, polls, false) = { s with
      bus := b
      sensor := { phase := .idle, kind := s.sensor.kind, poll := polls, running := none }
      mainResponse := [0x02] } := rfl

/-- The three bytes after a successful check, and what the operation makes of them (R57, R140, R142). -/
theorem afterPolls_ready (checked : Bool) (s : State) (b : Bus) (polls : Nat) (hi lo cs : Byte) (later : List Bool)
    (hpeer : b.peer = resultBits hi lo cs ++ later) :
    afterPolls checked s (b, polls, true) = { s with
      bus := {
        dataDrv := true
        sck := false
        trace := b.trace ++ (readTrace s.cfg hi true ++ readTrace s.cfg lo true ++ readTrace s.cfg cs false)
        peer := later
        draws := b.draws + 24 }
      sensor := { phase := .done, kind := s.sensor.kind, poll := polls, running := none }
      mainResponse := if checked = false ∨ crc8 s.cfg [commandByte s.cfg s.sensor.kind, hi, lo] = cs then [0x00, hi, lo]
        else [0x03] } := by
  rw [afterPolls, if_pos rfl]
  simp only [run_result_settled s.cfg b hi lo cs later hpeer, resultHi_resultBits, resultLo_resultBits,
    resultCs_resultBits, checksumMatches]
  split
  next hfails =>
    rw [if_neg (by simpa [not_or] using hfails)]
    rfl
  next hmatches =>
    rw [if_pos (by simpa [or_iff_not_imp_left] using hmatches)]
    rfl

/-- The operation that MEASURE or MEASURE_AND_CHECK begins. -/
theorem exec_measure (kind : Kind) (s : State) (i : Instr) (h : i = .measure kind ∨ i = .measureAndCheck kind) :
    ∃ checked, exec i s = .next (acceptMeasure checked kind s) := by
  obtain rfl | rfl := h
  · exact ⟨false, rfl⟩
  · exact ⟨true, rfl⟩

/-- Settles O37: the command byte's sample is the peer's settled answer. -/
theorem measureWithoutAcknowledge : Obligations.MeasureWithoutAcknowledge := by
  intro kind s later hphase hin hpeer i hi
  obtain ⟨checked, hexec⟩ := exec_measure kind s i hi
  have haccepts := (acceptsStart_iff _).mpr hphase
  have hcommand := run_command_settled s.cfg kind s.bus true later hpeer
  refine ⟨_, hexec, ?_⟩
  rw [run_acceptMeasure 60 checked kind s hin, advance_command checked kind s _ true haccepts hcommand]
  cases kind <;> rfl

/-- Settles O38: the poll loop on `POLL_MAX` settled answers of 1. -/
theorem measureTimesOut : Obligations.MeasureTimesOut := by
  intro kind s later hphase hin hpeer i hi
  obtain ⟨checked, hexec⟩ := exec_measure kind s i hi
  have haccepts := (acceptsStart_iff _).mpr hphase
  have hcommand := run_command_settled s.cfg kind s.bus false (List.replicate s.cfg.pollMax true ++ later) hpeer
  obtain ⟨_, hend⟩ := advance_acknowledged checked kind s _ _ _ _ haccepts hcommand
    (pollLoop_settled_timeout s.cfg _ _ later rfl rfl)
  refine ⟨_, hexec, (run_acceptMeasure _ checked kind s hin).trans (congrArg _ (hend.trans ?_))⟩
  rw [afterPolls_timeout]
  cases kind <;> simp [accepted, commandByte, cmdTemp, Nat.add_assoc, Nat.add_comm 1]

/-- Settles O36: the poll loop on the settled answers, then the three bytes. -/
theorem measureAgainstReadyPeer : Obligations.MeasureAgainstReadyPeer := by
  intro kind s fails hi lo cs later hphase hin hlt hpeer
  have haccepts := (acceptsStart_iff _).mpr hphase
  have hcommand := run_command_settled s.cfg kind s.bus false
    (List.replicate fails true ++ false :: (resultBits hi lo cs ++ later)) (by simpa using hpeer)
  have hend (checked : Bool) := (advance_acknowledged checked kind s _ _ _ _ haccepts hcommand
    (pollLoop_settled_ready s.cfg _ fails _ (resultBits hi lo cs ++ later) hlt rfl rfl)).2.trans
      (afterPolls_ready checked _ _ _ hi lo cs later rfl)
  have hrun (checked : Bool) := (run_acceptMeasure _ checked kind s hin).trans (congrArg _ (hend checked))
  have hsteps : 60 + 2 * fails + 1 + 147 = 60 + pollSteps (fails + 1) true := by
    show _ = 60 + (2 * (fails + 1) + 146)
    omega
  rw [hsteps]
  refine ⟨⟨_, rfl, (hrun false).trans ?_⟩, ⟨_, rfl, (hrun true).trans ?_⟩⟩
  · cases kind <;> simp [accepted, commandByte, cmdTemp, Nat.add_assoc, Nat.add_comm 1]
  · cases kind <;> simp [accepted, commandByte, cmdTemp, crc8, Nat.add_assoc, Nat.add_comm 1]

end Sys2Proof.Machine

/-!
Rounding to binary32 (R152): `F32.round` gives a nearest value, of two the one with the even significand.

A magnitude `a` is rounded to `significand a` units of its last place, a power of two. Against a value that is a whole number
of such units, nearness is that of `roundHalfEven`. A value that is none has a finer last place; it lies below `2^23` units,
and that many units are nearer to `a` (`roundedMagnitude_nearest`). The sign plays no part (`F32.round_neg`), and that
rounding passes no binary32 value follows from nearness (`round_le_of_le`, `le_round_of_le`).
-/

namespace Sys2Proof.Machine

/-! ### What `F32.round` answers -/

/-- `v` is a binary32 value, no other is nearer to `q`, and if another is as near the significand of `v` is even (R152). -/
def IsNearestBinary32 (q v : Rat) : Prop :=
  ∃ m e : Int, IsBinary32 m e v ∧
    ∀ (m' e' : Int) (w : Rat), IsBinary32 m' e' w → |q - v| ≤ |q - w| ∧ (w ≠ v → |q - v| = |q - w| → Even m)

/-- The exponent of the last place to which `F32.round` rounds a number of magnitude `a`. -/
def lastPlace (a : Rat) : Int := max (floorLog2 a - 23) (-149)

/-- The integer `F32.round` rounds the magnitude `a` to, counted in units of the last place. -/
def significand (a : Rat) : Nat := roundHalfEven (a / 2 ^ lastPlace a)

theorem IsBinary32.neg {m e : Int} {v : Rat} (h : IsBinary32 m e v) : IsBinary32 (-m) e (-v) := by
  obtain ⟨hlo, hhi, hm, hnormal, rfl⟩ := h
  exact ⟨hlo, hhi, by rwa [abs_neg], by rwa [abs_neg], by push_cast; ring⟩

theorem IsNearestBinary32.neg {q v : Rat} (h : IsNearestBinary32 q v) : IsNearestBinary32 (-q) (-v) := by
  obtain ⟨m, e, hv, hnearest⟩ := h
  refine ⟨-m, e, hv.neg, fun m' e' w hw => ?_⟩
  have hflip (x : Rat) : |-q - x| = |q - -x| := by rw [← abs_neg]; congr 1; ring
  rw [hflip, hflip, neg_neg, even_neg, ← neg_neg w, neg_neg w, ne_eq, ← neg_inj (a := w), neg_neg]
  exact hnearest (-m') e' (-w) hw.neg

/-- The magnitude `F32.round` gives a number of magnitude `a`, as long as it does not overflow. -/
def roundedMagnitude (a : Rat) : Rat := significand a * 2 ^ lastPlace a

theorem magnitude_eq_abs (q : Rat) : magnitude q = |q| := by
  unfold magnitude
  split
  · rw [abs_of_neg ‹_›]
  · rw [abs_of_nonneg (not_lt.mp ‹_›)]

theorem F32.round_of_ne {q : Rat} (h : q ≠ 0) : F32.round q =
    if pow2 128 ≤ roundedMagnitude |q| then .inf (decide (q < 0))
    else .fin (if q < 0 then -roundedMagnitude |q| else roundedMagnitude |q|) := by
  simp only [F32.round, if_neg h, magnitude_eq_abs, pow2_eq (max _ _)]
  rfl

/-- What a positive number is rounded to where that does not overflow. -/
theorem F32.round_eq_fin_iff_of_pos {q : Rat} (h : 0 < q) (v : Rat) :
    F32.round q = .fin v ↔ roundedMagnitude q = v ∧ v < 2 ^ 128 := by
  have hbound : pow2 128 = (2 : Rat) ^ 128 := pow2_eq 128
  rw [F32.round_of_ne h.ne', if_neg h.not_gt, abs_of_pos h, hbound, ← not_le (b := v)]
  split
  · exact ⟨nofun, fun ⟨hv, hlt⟩ => absurd (hv ▸ ‹_›) hlt⟩
  · exact ⟨by rintro ⟨⟩; exact ⟨rfl, ‹_›⟩, fun ⟨hv, _⟩ => congrArg F32.fin hv⟩

/-- Rounding does not see the sign (ties go to even). -/
theorem F32.round_neg (q : Rat) : F32.round (-q) = (F32.round q).neg := by
  rcases eq_or_ne q 0 with rfl | h
  · rfl
  have hsign : -q < 0 ↔ ¬ q < 0 := by rw [neg_lt_zero, not_lt, h.symm.le_iff_lt]
  rw [F32.round_of_ne h, F32.round_of_ne (neg_ne_zero.mpr h), abs_neg]
  by_cases hq : q < 0 <;> simp only [hsign, hq] <;> split <;> simp [F32.neg]

/-! ### The significand of a rounded magnitude -/

/-- A magnitude in units of its last place has at most 24 bits before the point. -/
theorem div_lastPlace_le {a : Rat} (h : 0 < a) : a / 2 ^ lastPlace a ≤ 2 ^ 24 := by
  rw [div_le_iff₀ (by positivity)]
  calc a ≤ 2 ^ (floorLog2 a + 1) := (lt_floorLog2_succ a h).le
    _ ≤ 2 ^ (24 + lastPlace a) := zpow_le_zpow_right₀ (by norm_num) (by rw [lastPlace]; omega)
    _ = 2 ^ 24 * 2 ^ lastPlace a := by rw [zpow_add₀ (by norm_num)]; rfl

/-- Above the least exponent it has no fewer. -/
theorem le_div_lastPlace {a : Rat} (h : 0 < a) (hnormal : lastPlace a ≠ -149) : 2 ^ 23 ≤ a / 2 ^ lastPlace a := by
  rw [le_div_iff₀ (by positivity)]
  calc (2 : Rat) ^ 23 * 2 ^ lastPlace a = 2 ^ (23 + lastPlace a) := by rw [zpow_add₀ (by norm_num)]; rfl
    _ = 2 ^ floorLog2 a := by congr 1; rw [lastPlace] at *; omega
    _ ≤ a := floorLog2_le a h

theorem significand_le {a : Rat} (h : 0 < a) : significand a ≤ 2 ^ 24 :=
  roundHalfEven_le _ _ (by positivity) (by exact_mod_cast div_lastPlace_le h)

/-- Rounding to the nearest integer does not pass an integer below. -/
theorem le_roundHalfEven {q : Rat} {m : Nat} (h : m ≤ q) : m ≤ roundHalfEven q := by
  have hnear := (roundHalfEven_nearest q (m.cast_nonneg.trans h) m).1
  by_contra hlt
  have hlt' : (roundHalfEven q : Rat) < m := by exact_mod_cast not_le.mp hlt
  rw [Int.cast_natCast, abs_of_nonneg (sub_nonneg.mpr h), abs_of_nonneg (by linarith)] at hnear
  linarith

theorem le_significand {a : Rat} (h : 0 < a) (hnormal : lastPlace a ≠ -149) : 2 ^ 23 ≤ significand a :=
  le_roundHalfEven (by exact_mod_cast le_div_lastPlace h hnormal)

/-- A value of 24 significant bits below the overflow bound has an admissible exponent. -/
theorem exponent_le {m : Nat} {e : Int} (hm : 2 ^ 23 ≤ m) (h : (m : Rat) * 2 ^ e < 2 ^ 128) : e ≤ 104 := by
  have hlt : (2 : Rat) ^ (23 + e) < 2 ^ (128 : Int) :=
    calc (2 : Rat) ^ (23 + e) = 2 ^ 23 * 2 ^ e := by rw [zpow_add₀ (by norm_num)]; rfl
      _ ≤ m * 2 ^ e := by gcongr; exact_mod_cast hm
      _ < 2 ^ (128 : Int) := h
  have := (zpow_lt_zpow_iff_right₀ (by norm_num)).mp hlt
  omega

/-- A rounded magnitude below the overflow bound is a binary32 value. Its significand is that of `F32.round`, except that
`2^24` units are `2^23` of the next exponent. -/
theorem isBinary32_roundedMagnitude {a : Rat} (h : 0 < a) (hfin : roundedMagnitude a < 2 ^ 128) :
    ∃ m e : Int, IsBinary32 m e (roundedMagnitude a) ∧ (Even (significand a) → Even m) := by
  rcases (significand_le h).lt_or_eq with hlt | htop
  · refine ⟨significand a, lastPlace a, ⟨le_max_right _ _, ?_, by simpa using hlt, ?_, by simp [roundedMagnitude]⟩, by simp⟩
    · by_cases hnormal : lastPlace a = -149
      · omega
      · exact exponent_le (le_significand h hnormal) hfin
    · by_cases hnormal : lastPlace a = -149
      · exact .inl hnormal
      · exact .inr (by simpa using le_significand h hnormal)
  · have hv : roundedMagnitude a = (2 ^ 23 : Nat) * 2 ^ (lastPlace a + 1) := by
      rw [roundedMagnitude, htop, zpow_add₀ (by norm_num)]; push_cast; ring
    have hlo : -149 ≤ lastPlace a := le_max_right _ _
    refine ⟨2 ^ 23, lastPlace a + 1, ⟨by omega, exponent_le le_rfl (hv ▸ hfin), by norm_num, .inr (by norm_num), ?_⟩, ?_⟩
    · rw [hv]; push_cast; rfl
    · exact fun _ => by decide

/-! ### No binary32 value is nearer -/

/-- A distance in units of the last place. -/
theorem abs_sub_units (a n : Rat) (u : Int) : |a - n * 2 ^ u| = |a / 2 ^ u - n| * 2 ^ u := by
  have hu : (0 : Rat) < 2 ^ u := by positivity
  rw [← abs_of_pos hu, ← abs_mul, abs_of_pos hu, sub_mul, div_mul_cancel₀ _ hu.ne']

/-- A whole number of units is no nearer than the rounded magnitude, and as near only if that has an even significand. -/
theorem roundedMagnitude_nearest_units {a : Rat} (h : 0 < a) (n : Int) :
    |a - roundedMagnitude a| ≤ |a - n * 2 ^ lastPlace a| ∧
      (n * 2 ^ lastPlace a ≠ roundedMagnitude a → |a - roundedMagnitude a| = |a - n * 2 ^ lastPlace a| →
        Even (significand a)) := by
  obtain ⟨hle, htie⟩ := roundHalfEven_nearest (a / 2 ^ lastPlace a) (by positivity) n
  have hu : (0 : Rat) < 2 ^ lastPlace a := by positivity
  rw [roundedMagnitude, abs_sub_units, abs_sub_units, mul_le_mul_iff_left₀ hu, mul_left_inj' hu.ne', Ne,
    mul_left_inj' hu.ne']
  exact ⟨hle, fun hne => htie (by exact_mod_cast hne)⟩

/-- A binary32 value of a finer last place lies below `2^23` units. -/
theorem IsBinary32.lt_of_exponent_lt {m e u : Int} {w : Rat} (h : IsBinary32 m e w) (hlt : e < u) :
    w < 2 ^ 23 * 2 ^ u := by
  obtain ⟨-, -, hm, -, rfl⟩ := h
  calc (m : Rat) * 2 ^ e < 2 ^ 24 * 2 ^ e := by
        gcongr
        exact_mod_cast (le_abs_self m).trans_lt hm
    _ = 2 ^ 23 * 2 ^ (e + 1) := by rw [zpow_add₀ (by norm_num)]; ring
    _ ≤ 2 ^ 23 * 2 ^ u := by gcongr; norm_num; omega

/-- A binary32 value of a coarser last place is a whole number of units. -/
theorem IsBinary32.eq_units {m e u : Int} {w : Rat} (h : IsBinary32 m e w) (hle : u ≤ e) :
    ∃ n : Int, w = n * 2 ^ u := by
  obtain ⟨-, -, -, -, rfl⟩ := h
  obtain ⟨k, rfl⟩ := Int.le.dest hle
  exact ⟨m * 2 ^ k, by rw [zpow_add₀ (by norm_num), zpow_natCast]; push_cast; ring⟩

/-- No binary32 value is nearer to `a` than its rounded magnitude, and one is as near only if that has an even significand.
Values of a finer last place all lie below `2^23` units, which lies between them and `a`. -/
theorem roundedMagnitude_nearest {a : Rat} (h : 0 < a) {m e : Int} {w : Rat} (hw : IsBinary32 m e w) :
    |a - roundedMagnitude a| ≤ |a - w| ∧
      (w ≠ roundedMagnitude a → |a - roundedMagnitude a| = |a - w| → Even (significand a)) := by
  rcases le_or_gt (lastPlace a) e with hcoarse | hfine
  · obtain ⟨n, rfl⟩ := hw.eq_units hcoarse
    exact roundedMagnitude_nearest_units h n
  · have hnormal : lastPlace a ≠ -149 := by have := hw.1; omega
    have hbelow : 2 ^ 23 * 2 ^ lastPlace a ≤ a := (le_div_iff₀ (by positivity)).mp (le_div_lastPlace h hnormal)
    have hnear := (roundedMagnitude_nearest_units h (2 ^ 23)).1
    rw [Int.cast_pow, Int.cast_ofNat, abs_of_nonneg (sub_nonneg.mpr hbelow)] at hnear
    have hcloser : |a - roundedMagnitude a| < |a - w| := by
      have hlt := hw.lt_of_exponent_lt hfine
      rw [abs_of_pos (a := a - w) (by linarith)]
      linarith
    exact ⟨hcloser.le, fun _ htie => absurd htie hcloser.ne⟩

/-- Rounding a positive number gives a nearest binary32 value: it does so to whole units, and an even count of units has an
even significand. -/
theorem isNearestBinary32_of_round_of_pos {q v : Rat} (h : 0 < q) (hv : F32.round q = .fin v) : IsNearestBinary32 q v := by
  obtain ⟨rfl, hfin⟩ := (F32.round_eq_fin_iff_of_pos h v).mp hv
  obtain ⟨m, e, hvalue, heven⟩ := isBinary32_roundedMagnitude h hfin
  refine ⟨m, e, hvalue, fun m' e' w hw => ?_⟩
  obtain ⟨hle, htie⟩ := roundedMagnitude_nearest h hw
  exact ⟨hle, fun hne heq => heven (htie hne heq)⟩

/-- Rounding gives a nearest binary32 value, of two the one with the even significand (R152). -/
theorem isNearestBinary32_of_round {q v : Rat} (hv : F32.round q = .fin v) : IsNearestBinary32 q v := by
  rcases lt_trichotomy q 0 with h | rfl | h
  · have hneg : F32.round (-q) = .fin (-v) := by rw [F32.round_neg, hv, F32.neg]
    simpa using (isNearestBinary32_of_round_of_pos (neg_pos.mpr h) hneg).neg
  · cases hv
    exact ⟨0, -149, ⟨le_rfl, by decide, by decide, .inl rfl, by simp⟩, fun _ _ w _ => ⟨by simp, fun _ _ => Even.zero⟩⟩
  · exact isNearestBinary32_of_round_of_pos h hv

/-! ### Values that rounding leaves or bounds -/

/-- A natural number of at most 24 bits is a binary32 value. -/
theorem F32.round_natCast {n : Nat} (h : n < 2 ^ 24) : F32.round n = .fin n := by
  rcases n.eq_zero_or_pos with rfl | hpos
  · rfl
  have hq : (0 : Rat) < n := by exact_mod_cast hpos
  have hlt : (n : Rat) < 2 ^ (24 : Int) := by exact_mod_cast h
  have hexp : floorLog2 n < 24 := (zpow_lt_zpow_iff_right₀ (by norm_num)).mp ((floorLog2_le n hq).trans_lt hlt)
  obtain ⟨k, hk⟩ := Int.eq_ofNat_of_zero_le (show 0 ≤ -lastPlace n by rw [lastPlace]; omega)
  have hplace : (2 : Rat) ^ lastPlace n = (2 ^ k)⁻¹ := by rw [← zpow_natCast, ← hk, zpow_neg, inv_inv]
  have hunits : (n : Rat) / 2 ^ lastPlace n = (n * 2 ^ k : Nat) := by rw [hplace, div_inv_eq_mul]; push_cast; rfl
  refine (F32.round_eq_fin_iff_of_pos hq n).mpr ⟨?_, hlt.trans (by norm_num)⟩
  rw [roundedMagnitude, significand, hunits, roundHalfEven_natCast, hplace]
  push_cast
  exact mul_inv_cancel_right₀ (by positivity) _

/-- Rounding does not pass a binary32 value above. -/
theorem round_le_of_le {q v w : Rat} {m e : Int} (hv : F32.round q = .fin v) (hw : IsBinary32 m e w) (h : q ≤ w) : v ≤ w := by
  obtain ⟨_, _, -, hnearest⟩ := isNearestBinary32_of_round hv
  have hnear := (hnearest m e w hw).1
  rw [abs_of_nonpos (sub_nonpos.mpr h)] at hnear
  linarith [neg_abs_le (q - v)]

/-- Rounding does not pass a binary32 value below. -/
theorem le_round_of_le {q v w : Rat} {m e : Int} (hv : F32.round q = .fin v) (hw : IsBinary32 m e w) (h : w ≤ q) : w ≤ v := by
  obtain ⟨_, _, -, hnearest⟩ := isNearestBinary32_of_round hv
  have hnear := (hnearest m e w hw).1
  rw [abs_of_nonneg (sub_nonneg.mpr h)] at hnear
  linarith [le_abs_self (q - v)]

end Sys2Proof.Machine
/-!
CONVERT (spec/44_convert.md): truncation (R154), the fit of the temperature (R156), the results in the two named arithmetics
(R151, R152), and the clamp invariant in every arithmetic (R153).
-/

namespace Sys2Proof.Machine

/-! ### Truncation (R154) -/

/-- Settles O41: on either side of zero truncation is the floor of the magnitude. -/
theorem truncationIsTowardZero : Obligations.TruncationIsTowardZero := by
  intro q
  constructor <;> intro h
  · rw [trunc_of_nonneg q h]
    exact ⟨Int.floor_le q, Int.lt_floor_add_one q⟩
  · rw [trunc_of_nonpos q h]
    push_cast
    constructor
    · linarith [Int.floor_le (-q)]
    · linarith [Int.lt_floor_add_one (-q)]

/-! ### The temperature fits sixteen signed bits (R156) -/

theorem fitsI16_iff (z : Int) : fitsI16 z = true ↔ -32768 ≤ z ∧ z ≤ 32767 := by
  simp [fitsI16]

/-- `dT` lies between its values at the ends of the raw range, in the order that the sign of `D2` gives (R151). -/
theorem degrees_between (c : Config) {t : Nat} (h : t ≤ 65535) :
    (degrees c 0 ≤ degrees c t ∧ degrees c t ≤ degrees c 65535) ∨
      (degrees c 65535 ≤ degrees c t ∧ degrees c t ≤ degrees c 0) := by
  have h0 : (0 : Rat) ≤ t := t.cast_nonneg
  have h1 : (t : Rat) ≤ 65535 := by exact_mod_cast h
  simp only [degrees, Nat.cast_zero, Nat.cast_ofNat]
  rcases le_total 0 c.d2 with hd | hd
  · left
    constructor <;> gcongr
  · right
    constructor
    · linarith [mul_le_mul_of_nonpos_left h1 hd]
    · linarith [mul_le_mul_of_nonpos_left h0 hd]

/-- Settles O42: truncation is monotone, so that the two ends of the raw range bound every temperature between them. -/
theorem exactTemperatureFits : Obligations.ExactTemperatureFits := by
  intro c rawTemp
  have hmono {a b : Nat} (h : degrees c a ≤ degrees c b) : temperatureExact c a ≤ temperatureExact c b :=
    trunc_mono (by linarith)
  obtain ⟨hlo, hhi⟩ := (fitsI16_iff (temperatureExact c 0)).mp c.temperature_zero_fits
  obtain ⟨hlo', hhi'⟩ := (fitsI16_iff (temperatureExact c 65535)).mp c.temperature_top_fits
  rcases degrees_between c (Nat.le_of_lt_succ rawTemp.isLt) with ⟨h, h'⟩ | ⟨h, h'⟩
  · exact ⟨hlo.trans (hmono h), (hmono h').trans hhi'⟩
  · exact ⟨hlo'.trans (hmono h), (hmono h').trans hhi⟩

/-! ### What CONVERT answers (R150) -/

/-- CONVERT writes its response and nothing else, in every state. -/
theorem exec_convert (rawTemp rawHumidity : Word) (s : State) :
    exec (.convert rawTemp rawHumidity) s = .next { s with
      mainResponse := [0x00, hiByte (convertTemperature s.cfg rawTemp), loByte (convertTemperature s.cfg rawTemp),
        hiByte (convertHumidity s.cfg rawTemp rawHumidity), loByte (convertHumidity s.cfg rawTemp rawHumidity)] } := rfl

theorem convertTemperature_exact {c : Config} (hnum : c.num = .exact) (t : Word) :
    convertTemperature c t = toI16 (temperatureExact c t.toNat) (Config.unstatedTemperature c.toParameters t) := by
  simp only [convertTemperature, hnum]

theorem convertTemperature_binary32 {c : Config} (hnum : c.num = .binary32) (t : Word) :
    convertTemperature c t = temperature32 c t := by
  simp only [convertTemperature, hnum]

theorem convertHumidity_exact {c : Config} (hnum : c.num = .exact) (t h : Word) :
    convertHumidity c t h = BitVec.ofInt 16 (humidityExact c t.toNat h.toNat) := by
  simp only [convertHumidity, hnum]

theorem convertHumidity_binary32 {c : Config} (hnum : c.num = .binary32) (t h : Word) :
    convertHumidity c t h = humidity32 c t h := by
  simp only [convertHumidity, hnum]

theorem convertHumidity_other {c : Config} {id : Nat} (hnum : c.num = .other id) (t h : Word) :
    convertHumidity c t h = BitVec.ofNat 16 (Config.otherHumidity id c.toParameters t h).val := by
  simp only [convertHumidity, hnum]

/-! ### The clamp invariant (R153) -/

theorem humidityExact_range (c : Config) (t h : Nat) : 0 ≤ humidityExact c t h ∧ humidityExact c t h ≤ 1000 := by
  obtain ⟨h0, h1⟩ := clampPercent_range (compensatedHumidity c t h)
  exact trunc_range _ (by linarith) (by linarith)

theorem isBinary32_zero : IsBinary32 0 (-149) 0 := ⟨le_rfl, by decide, by decide, .inl rfl, by simp⟩

theorem isBinary32_thousand : IsBinary32 (1000 * 2 ^ 14) (-14) 1000 :=
  ⟨by decide, by decide, by decide, .inr (by decide), by norm_num⟩

/-- The clamp of binary32 makes a number of 0 to 100 of everything that is a number, infinities included. -/
theorem F32.clampPercent_cases (x : F32) : x.clampPercent = .nan ∨ ∃ p, x.clampPercent = .fin p ∧ 0 ≤ p ∧ p ≤ 100 := by
  cases x with
  | fin q => exact .inr ⟨_, rfl, clampPercent_range q⟩
  | inf negative => cases negative <;> exact .inr ⟨_, rfl, by norm_num, by norm_num⟩
  | nan => exact .inl rfl

/-- A clamped number, scaled by 10 in binary32 and truncated: 0 and 1000 are binary32 values, and rounding passes neither. -/
theorem F32.trunc_clampPercent_mul_ten_range {x : F32} {z : Int} (h : (x.clampPercent.mul (.fin 10)).trunc = some z) :
    0 ≤ z ∧ z ≤ 1000 := by
  rcases x.clampPercent_cases with hx | ⟨p, hx, h0, h1⟩
  · rw [hx] at h
    cases h
  · rw [hx, F32.mul_fin] at h
    cases hv : F32.round (p * 10) <;> rw [hv] at h <;> cases h
    exact trunc_range _ (le_round_of_le hv isBinary32_zero (by linarith))
      (round_le_of_le hv isBinary32_thousand (by linarith))

/-- A word that stands for a number of 0 to 1000. -/
theorem ofInt_range {z : Int} (h0 : 0 ≤ z) (h1 : z ≤ 1000) :
    0 ≤ (BitVec.ofInt 16 z).toInt ∧ (BitVec.ofInt 16 z).toInt ≤ 1000 := by
  rw [ofInt_toInt_of_fits z (by omega) (by omega)]
  exact ⟨h0, h1⟩

theorem ofFin_range (n : Fin 1001) : 0 ≤ (BitVec.ofNat 16 n.val).toInt ∧ (BitVec.ofNat 16 n.val).toInt ≤ 1000 :=
  ofInt_range (z := n.val) (by omega) (by omega)

theorem humidity32_range (c : Config) (t h : Word) : 0 ≤ (humidity32 c t h).toInt ∧ (humidity32 c t h).toInt ≤ 1000 := by
  unfold humidity32
  split
  · obtain ⟨h0, h1⟩ := F32.trunc_clampPercent_mul_ten_range ‹_›
    exact ofInt_range h0 h1
  · exact ofFin_range _

theorem convertHumidity_range (c : Config) (t h : Word) :
    0 ≤ (convertHumidity c t h).toInt ∧ (convertHumidity c t h).toInt ≤ 1000 := by
  cases hnum : c.num with
  | exact =>
    obtain ⟨h0, h1⟩ := humidityExact_range c t.toNat h.toNat
    rw [convertHumidity_exact hnum]
    exact ofInt_range h0 h1
  | binary32 =>
    rw [convertHumidity_binary32 hnum]
    exact humidity32_range c t h
  | other id =>
    rw [convertHumidity_other hnum]
    exact ofFin_range _

/-- Settles O44: the clamp, arithmetic by arithmetic. -/
theorem convertKeepsHumidityInRange : Obligations.ConvertKeepsHumidityInRange := fun rawTemp rawHumidity s =>
  ⟨exec_convert rawTemp rawHumidity s, convertHumidity_range s.cfg rawTemp rawHumidity⟩

/-! ### The exact arithmetic (R151) -/

theorem convertTemperature_exact_toInt {c : Config} (hnum : c.num = .exact) (t : Word) :
    (convertTemperature c t).toInt = temperatureExact c t.toNat := by
  obtain ⟨hlo, hhi⟩ := exactTemperatureFits c t
  rw [convertTemperature_exact hnum]
  exact toI16_toInt _ _ hlo hhi

theorem convertHumidity_exact_toInt {c : Config} (hnum : c.num = .exact) (t h : Word) :
    (convertHumidity c t h).toInt = humidityExact c t.toNat h.toNat := by
  obtain ⟨hlo, hhi⟩ := humidityExact_range c t.toNat h.toNat
  rw [convertHumidity_exact hnum]
  exact ofInt_toInt_of_fits _ (by omega) (by omega)

/-- Settles O43: both results fit their words. -/
theorem convertInExactArithmetic : Obligations.ConvertInExactArithmetic := by
  intro rawTemp rawHumidity s hnum
  refine ⟨_, _, exec_convert rawTemp rawHumidity s, convertTemperature_exact_toInt hnum rawTemp, ?_⟩
  rw [convertHumidity_exact_toInt hnum, humidityExact, clampPercent_eq]
  rfl

/-! ### Single precision (R152) -/

/-- Where `humidityRounded` answers, `dRHc` of `NUM_F32` is that value. -/
theorem compensatedHumidity32_of_rounded {c : Config} {t h : Nat} {dRHc : Rat}
    (hr : humidityRounded c.toParameters t h = some dRHc) : compensatedHumidity32 c t h = .fin dRHc := by
  simp only [humidityRounded, Option.bind_eq_bind, Option.bind_eq_some_iff, rounded_eq_some] at hr
  obtain ⟨dRH, hlinear, dT, hdegrees, t1, h1, t2, h2, above, ha, slope, hs, factor, hf, correction, hc, hsum⟩ := hr
  rw [compensatedHumidity32, degrees32_of_rounded hdegrees, linearHumidity32_of_rounded hlinear, h1, h2, F32.sub_fin, ha,
    F32.mul_fin, hs, F32.sub_fin, hf, F32.mul_fin, hc, F32.add_fin, hsum]

theorem convertTemperature_binary32_toInt {c : Config} (hnum : c.num = .binary32) {t : Word} {dT x : Rat}
    (hdegrees : degreesRounded c.toParameters t.toNat = some dT) (hx : rounded (dT * 10) = some x)
    (hlo : -32768 ≤ trunc x) (hhi : trunc x ≤ 32767) : (convertTemperature c t).toInt = trunc x := by
  have hscaled : (degrees32 c t.toNat).mul (.fin 10) = .fin x := by
    rw [degrees32_of_rounded hdegrees, F32.mul_fin, rounded_eq_some.mp hx]
  rw [convertTemperature_binary32 hnum, temperature32, hscaled]
  exact toI16_toInt _ _ hlo hhi

theorem convertHumidity_binary32_toInt {c : Config} (hnum : c.num = .binary32) {t h : Word} {dRHc x : Rat}
    (hhumidity : humidityRounded c.toParameters t.toNat h.toNat = some dRHc)
    (hx : rounded (max 0 (min 100 dRHc) * 10) = some x) : (convertHumidity c t h).toInt = trunc x := by
  have hscaled : ((compensatedHumidity32 c t.toNat h.toNat).clampPercent.mul (.fin 10)).trunc = some (trunc x) := by
    rw [compensatedHumidity32_of_rounded hhumidity, F32.clampPercent, clampPercent_eq, F32.mul_fin, rounded_eq_some.mp hx,
      F32.trunc]
  obtain ⟨hlo, hhi⟩ := F32.trunc_clampPercent_mul_ten_range hscaled
  rw [convertHumidity_binary32 hnum, humidity32, hscaled]
  exact ofInt_toInt_of_fits _ (by omega) (by omega)

/-- Settles O45: nearness is that of every rounding; the formulas are followed from the constants to the two results. -/
theorem convertInSinglePrecision : Obligations.ConvertInSinglePrecision := by
  refine ⟨fun n hn => F32.round_natCast (by omega), fun q v => isNearestBinary32_of_round, ?_⟩
  intro rawTemp rawHumidity s hnum
  refine ⟨_, _, exec_convert rawTemp rawHumidity s, ?_, ?_⟩
  · exact fun dT x => convertTemperature_binary32_toInt hnum
  · exact fun dRHc x => convertHumidity_binary32_toInt hnum

end Sys2Proof.Machine

/-!
TO_PACKED_BCD (R157 to R160): the packed word read back bit field by bit field, and through them the round trip.
-/

namespace Sys2Proof.Machine

/-! ### The fields of a packed word (R158) -/

/-- The low part of two joined bit strings. -/
theorem extractLsb'_append_low {v w : Nat} (x : BitVec v) (y : BitVec w) : (x ++ y).extractLsb' 0 w = y := by
  ext i hi
  simp [hi, BitVec.getLsbD_append]

/-- A field above the low part is a field of the high part. -/
theorem extractLsb'_append_high {v w : Nat} (x : BitVec v) (y : BitVec w) (start len : Nat) :
    (x ++ y).extractLsb' (w + start) len = x.extractLsb' start len := by
  ext i hi
  simp [BitVec.getLsbD_append, Nat.add_assoc]

theorem packDigits_sign (negative : Bool) (m : Nat) : (packDigits negative m).getLsbD 15 = negative := by
  have hbit : (packDigits negative m).getLsbD 15 = (BitVec.ofBool negative).getLsbD 0 := by
    simp only [packDigits, BitVec.getLsbD_append]
    rfl
  rw [hbit, BitVec.getLsbD_ofBool, decide_eq_true rfl, Bool.true_and]

theorem packDigits_thousands (negative : Bool) {m : Nat} (h : m ≤ 7999) :
    ((packDigits negative m).extractLsb' 12 3).toNat = m / 1000 := by
  have hfield : (packDigits negative m).extractLsb' 12 3 = BitVec.ofNat 3 (m / 1000) :=
    calc (packDigits negative m).extractLsb' 12 3
        = _ := extractLsb'_append_high _ _ 8 3
      _ = _ := extractLsb'_append_high _ _ 4 3
      _ = _ := extractLsb'_append_high _ _ 0 3
      _ = _ := extractLsb'_append_low _ _
  rw [hfield, BitVec.toNat_ofNat, Nat.mod_eq_of_lt (by omega)]

/-- A decimal digit fits its four bits. -/
theorem toNat_ofNat_digit (n : Nat) : (BitVec.ofNat 4 (n % 10)).toNat = n % 10 := by
  rw [BitVec.toNat_ofNat, Nat.mod_eq_of_lt (by omega)]

theorem packDigits_hundreds (negative : Bool) (m : Nat) :
    ((packDigits negative m).extractLsb' 8 4).toNat = m / 100 % 10 := by
  have hfield : (packDigits negative m).extractLsb' 8 4 = BitVec.ofNat 4 (m / 100 % 10) :=
    calc (packDigits negative m).extractLsb' 8 4
        = _ := extractLsb'_append_high _ _ 4 4
      _ = _ := extractLsb'_append_high _ _ 0 4
      _ = _ := extractLsb'_append_low _ _
  rw [hfield, toNat_ofNat_digit]

theorem packDigits_tens (negative : Bool) (m : Nat) :
    ((packDigits negative m).extractLsb' 4 4).toNat = m / 10 % 10 := by
  have hfield : (packDigits negative m).extractLsb' 4 4 = BitVec.ofNat 4 (m / 10 % 10) :=
    (extractLsb'_append_high _ _ 0 4).trans (extractLsb'_append_low _ _)
  rw [hfield, toNat_ofNat_digit]

theorem packDigits_units (negative : Bool) (m : Nat) :
    ((packDigits negative m).extractLsb' 0 4).toNat = m % 10 := by
  have hfield : (packDigits negative m).extractLsb' 0 4 = BitVec.ofNat 4 (m % 10) := extractLsb'_append_low _ _
  rw [hfield, toNat_ofNat_digit]

/-- Decoding the packed word gives sign and magnitude back (R160). -/
theorem bcdValue_packDigits (negative : Bool) {m : Nat} (h : m ≤ 7999) :
    bcdValue (packDigits negative m) = (if negative then -1 else 1) * m := by
  rw [bcdValue, packDigits_sign, packDigits_thousands negative h, packDigits_hundreds, packDigits_tens, packDigits_units]
  congr 2
  omega

/-! ### Status and word, range by range (R157, R159) -/

theorem packedBcd_above {value : Word} (h : 7999 < value.toInt) : packedBcd value = (.saturated, 0x7999) := if_pos h

theorem packedBcd_below {value : Word} (h : value.toInt < -7999) : packedBcd value = (.saturated, 0xF999) :=
  (if_neg (by omega)).trans (if_pos h)

theorem packedBcd_inRange {value : Word} (hlo : -7999 ≤ value.toInt) (hhi : value.toInt ≤ 7999) :
    packedBcd value = (.ok, packDigits (decide (value.toInt < 0)) value.toInt.natAbs) :=
  (if_neg (by omega)).trans (if_neg (by omega))

/-- TO_PACKED_BCD writes its response and nothing else, in every state. -/
theorem exec_toPackedBcd (value : Word) (s : State) : exec (.toPackedBcd value) s = .next { s with
    mainResponse := responseBytes (packedBcd value).1 (wordBytes (packedBcd value).2) } := rfl

/-- Settles O46: in range the five fields of the packed word, out of range the boundary word. -/
theorem toPackedBcdEffect : Obligations.ToPackedBcdEffect := by
  refine ⟨fun hi lo => ⟨decode_code_cons .toPackedBcd [hi, lo], rfl⟩, fun value s => ⟨fun h => ?_, fun h => ?_, ?_⟩⟩
  · rw [exec_toPackedBcd, packedBcd_above h]
    rfl
  · rw [exec_toPackedBcd, packedBcd_below h]
    rfl
  · intro hlo hhi
    have hm : value.toInt.natAbs ≤ 7999 := by omega
    refine ⟨packDigits (decide (value.toInt < 0)) value.toInt.natAbs, ?_, packDigits_sign _ _, packDigits_thousands _ hm,
      packDigits_hundreds _ _, packDigits_tens _ _, packDigits_units _ _⟩
    rw [exec_toPackedBcd, packedBcd_inRange hlo hhi]
    rfl

/-- In range, decoding the packed word gives the value back (R160). -/
theorem bcdValue_packedBcd {value : Word} (hlo : -7999 ≤ value.toInt) (hhi : value.toInt ≤ 7999) :
    bcdValue (packedBcd value).2 = value.toInt := by
  rw [packedBcd_inRange hlo hhi, bcdValue_packDigits _ (by omega)]
  split <;> simp only [decide_eq_true_eq] at * <;> omega

/-- Minus zero stands for 0 and has the sign, and only a number below 0 gets the sign (R158). -/
theorem packedBcd_ne_minusZero (value : Word) : (packedBcd value).2 ≠ 0x8000 := by
  by_cases hhi : 7999 < value.toInt
  · rw [packedBcd_above hhi]
    decide
  by_cases hlo : value.toInt < -7999
  · rw [packedBcd_below hlo]
    decide
  · intro h
    have hsign : ((0x8000 : Word).getLsbD 15) = decide (value.toInt < 0) := by
      rw [← h, packedBcd_inRange (by omega) (by omega), packDigits_sign]
    have hvalue : bcdValue 0x8000 = value.toInt := h ▸ bcdValue_packedBcd (by omega) (by omega)
    have hneg : value.toInt < 0 := of_decide_eq_true hsign.symm
    exact hneg.ne hvalue.symm

/-- Settles O47: the round trip range by range. -/
theorem packedBcdRoundTrip : Obligations.PackedBcdRoundTrip := fun value =>
  ⟨fun hlo hhi => ⟨congrArg Prod.fst (packedBcd_inRange hlo hhi), bcdValue_packedBcd hlo hhi⟩, packedBcd_ne_minusZero value⟩

end Sys2Proof.Machine

/-!
DebounceEngine (spec/45_debounce.md): what one tick does to a channel (R171 to R179), a short press (R185), and a button
held down (R184).

A held channel goes through timed periods, each ended by a `Hold`: number 0 is `ArmedShortOrHold`, number 1 is `Hold1`,
and every later one is `HoldRepeat`. The timer starts each period at 0 and counts its ticks (`Channel.HeldIn`), so that
one lemma about a period serves all of them, and R184 is an induction over periods.
-/

namespace Sys2Proof.Machine

/-! ### The timed periods of a held channel -/

/-- The sequence state of period `p`. -/
def heldSeq : Nat → Seq
  | 0 => .armedShortOrHold
  | 1 => .hold1
  | _ + 2 => .holdRepeat

/-- The length of period `p` in ticks. -/
def heldLimit (c : Config) : Nat → Nat
  | 0 => c.shortPressLimit
  | 1 => c.longPressFirstPeriod
  | _ + 2 => c.longPressRepeatPeriod

/-- The tick that ends period `p - 1` and starts period `p`, for a channel that was armed on tick 3. -/
def heldStart (c : Config) : Nat → Nat
  | 0 => 3
  | p + 1 => heldStart c p + heldLimit c p

theorem heldLimit_pos (c : Config) : ∀ p, 0 < heldLimit c p
  | 0 => c.shortPressLimit_pos
  | 1 => c.longPressFirstPeriod_pos
  | _ + 2 => c.longPressRepeatPeriod_pos

theorem heldLimit_le (c : Config) : ∀ p, heldLimit c p ≤ 255
  | 0 => c.shortPressLimit_le
  | 1 => c.longPressFirstPeriod_le
  | _ + 2 => c.longPressRepeatPeriod_le

theorem heldStart_add_two (c : Config) (n : Nat) :
    heldStart c (n + 2) = 3 + c.shortPressLimit + c.longPressFirstPeriod + n * c.longPressRepeatPeriod := by
  induction n with
  | zero => simp [heldStart, heldLimit]
  | succ n ih =>
    calc heldStart c (n + 3)
        = heldStart c (n + 2) + c.longPressRepeatPeriod := rfl
      _ = _ := by rw [ih, Nat.succ_mul]; omega

/-- The ends of the periods are the ticks that R184 names. -/
theorem exists_eq_heldStart_succ_iff (c : Config) (tick : Nat) :
    (∃ p, tick = heldStart c (p + 1)) ↔
      tick = 3 + c.shortPressLimit ∨ tick = 3 + c.shortPressLimit + c.longPressFirstPeriod ∨
        ∃ n, 1 ≤ n ∧ tick = 3 + c.shortPressLimit + c.longPressFirstPeriod + n * c.longPressRepeatPeriod := by
  constructor
  · rintro ⟨_ | _ | n, rfl⟩
    · exact .inl rfl
    · exact .inr (.inl rfl)
    · exact .inr (.inr ⟨n + 1, Nat.succ_pos n, heldStart_add_two c (n + 1)⟩)
  · rintro (rfl | rfl | ⟨n, -, rfl⟩)
    · exact ⟨0, rfl⟩
    · exact ⟨1, rfl⟩
    · exact ⟨n + 1, (heldStart_add_two c n).symm⟩

/-- Every tick from the arming on falls into a period. -/
theorem exists_heldStart_add (c : Config) {tick : Nat} (h : 3 ≤ tick) :
    ∃ p j, j < heldLimit c p ∧ tick = heldStart c p + j := by
  induction tick, h using Nat.le_induction with
  | base => exact ⟨0, 0, heldLimit_pos c 0, rfl⟩
  | succ tick _ ih =>
    obtain ⟨p, j, hj, rfl⟩ := ih
    obtain hlt | hend : j + 1 < heldLimit c p ∨ j + 1 = heldLimit c p := by omega
    · exact ⟨p, j + 1, hlt, rfl⟩
    · exact ⟨p + 1, 0, heldLimit_pos c (p + 1), congrArg (heldStart c p + ·) hend⟩

/-! ### Step 3 (R174 to R177) -/

/-- The three timed states follow one rule while the level is high (R175 to R177). -/
theorem sequenceNext_heldSeq (c : Config) (ht : Byte) : ∀ p, sequenceNext c true (heldSeq p) ht =
    if (ht + 1).toNat = heldLimit c p then (heldSeq (p + 1), 0, .hold) else (heldSeq p, ht + 1, .none)
  | 0 => rfl
  | 1 => rfl
  | _ + 2 => rfl

/-- The timer is incremented modulo 256 (R175). -/
theorem ofNat_succ_mod_eq_add_one (ht : Byte) : BitVec.ofNat 8 ((ht.toNat + 1) % 256) = ht + 1 :=
  BitVec.eq_of_toNat_eq (by simp [BitVec.toNat_add])

/-- Settles O49: each line is the model's branch for that state and level, the incremented timer aside. -/
theorem sequenceTransitions : Obligations.SequenceTransitions := by
  intro c ht
  rw [ofNat_succ_mod_eq_add_one]
  exact ⟨rfl, rfl, rfl, sequenceNext_heldSeq c ht 0, rfl, sequenceNext_heldSeq c ht 1, rfl,
    sequenceNext_heldSeq c ht 2⟩

/-! ### The two operations (R170, R182) -/

theorem State.channel_of_getElem? {s : State} {ch : Byte} {k : Channel} (h : s.channels[ch.toNat]? = some k) :
    s.channel ch = k := by
  rw [State.channel, List.getD_eq_getElem?_getD, h, Option.getD_some]

/-- The request of DEBOUNCE_TICK, with its sample's byte (R75). -/
theorem decode_debounceTick (ch : Byte) (sample : Bool) :
    decode [0x50, ch, boolByte sample] = .ok (.debounceTick ch sample) :=
  calc decode [0x50, ch, boolByte sample]
      = orOutOfDomain .debounceTick (boolOperand (boolByte sample)) (.debounceTick ch) :=
        decode_code_cons .debounceTick _
    _ = .ok (.debounceTick ch sample) := by rw [boolOperand_boolByte, orOutOfDomain_some]

/-- DEBOUNCE_TICK on a channel that exists writes that channel and its response (R179, R183). -/
theorem exec_debounceTick {s : State} {ch : Byte} {k : Channel} (h : s.channels[ch.toNat]? = some k) (sample : Bool) :
    exec (.debounceTick ch sample) s = .next { s with
      channels := s.channels.set ch.toNat (k.tick s.cfg sample)
      tickResponse := [0x00, eventByte (k.tick s.cfg sample).eventOut] } := by
  rw [exec, execDebounceTick, State.channel_of_getElem? h]
  rfl

/-- READ_EVENT on a channel that exists writes its response and nothing else (R182). -/
theorem exec_readEvent {s : State} {ch : Byte} {k : Channel} (h : s.channels[ch.toNat]? = some k) :
    exec (.readEvent ch) s = .next { s with mainResponse := [0x00, eventByte k.eventOut] } := by
  rw [exec, execReadEvent, State.channel_of_getElem? h]
  rfl

/-- Settles O48: the level of the tick, bit by bit, is `settledNext` (R172); the rest is the rule of the operation. -/
theorem debounceTickEffect : Obligations.DebounceTickEffect := by
  refine ⟨fun ch sample => ⟨decode_debounceTick ch sample, rfl⟩, fun ch sample s k hk => ?_⟩
  have hlt : ch.toNat < s.channels.length := (List.getElem?_eq_some_iff.mp hk).1
  refine ⟨?_, List.getElem?_set_self hlt, fun other hne => List.getElem?_set_ne hne.symm⟩
  rw [exec_debounceTick hk, Channel.tick, settledNext_eq]
  rfl

/-- Settles O50: the latch is read, and the response is all that is written. -/
theorem readEventEffect : Obligations.ReadEventEffect :=
  ⟨fun ch => ⟨decode_code_cons .readEvent [ch], rfl⟩, fun _ _ _ hk => exec_readEvent hk⟩

/-! ### One tick, by sequence state and level -/

section
variable {c : Config} {k : Channel} {b : Bool}

/-- An idle channel whose level is low stays idle (R174). -/
theorem Channel.tick_idle_low (hseq : k.seq = .idle) (hlow : settledNext (shiftIn k.filterShift b) k.settled = false) :
    k.tick c b = { k with filterShift := shiftIn k.filterShift b, settled := false, eventOut := .none } := by
  simp only [Channel.tick, hseq, hlow]
  rfl

/-- An idle channel whose level is high is armed (R174). -/
theorem Channel.tick_idle_high (hseq : k.seq = .idle) (hhigh : settledNext (shiftIn k.filterShift b) k.settled = true) :
    k.tick c b = ⟨shiftIn k.filterShift b, true, .armedShortOrHold, 0, .none⟩ := by
  simp only [Channel.tick, hseq, hhigh]
  rfl

/-- The level of an armed channel falls (R175). -/
theorem Channel.tick_armed_low (hseq : k.seq = .armedShortOrHold)
    (hlow : settledNext (shiftIn k.filterShift b) k.settled = false) :
    k.tick c b = ⟨shiftIn k.filterShift b, false, .idle, k.holdTimer + 1, .pressed⟩ := by
  simp only [Channel.tick, hseq, hlow]
  rfl

/-- Within a period the timer counts and nothing is emitted (R175 to R177). -/
theorem Channel.tick_high_of_ne {p : Nat} (hseq : k.seq = heldSeq p)
    (hhigh : settledNext (shiftIn k.filterShift b) k.settled = true) (hne : (k.holdTimer + 1).toNat ≠ heldLimit c p) :
    k.tick c b = ⟨shiftIn k.filterShift b, true, heldSeq p, k.holdTimer + 1, .none⟩ := by
  simp only [Channel.tick, hseq, hhigh, sequenceNext_heldSeq, if_neg hne]

/-- At the end of a period comes a `Hold`, and the next period starts (R175 to R177). -/
theorem Channel.tick_high_of_eq {p : Nat} (hseq : k.seq = heldSeq p)
    (hhigh : settledNext (shiftIn k.filterShift b) k.settled = true) (heq : (k.holdTimer + 1).toNat = heldLimit c p) :
    k.tick c b = ⟨shiftIn k.filterShift b, true, heldSeq (p + 1), 0, .hold⟩ := by
  simp only [Channel.tick, hseq, hhigh, sequenceNext_heldSeq, if_pos heq]

end

/-! ### The first three high samples (R184, R185) -/

/-- One tick more, from what the channel is after the ticks before it. -/
theorem Channel.ticks_concat_of_eq {c : Config} {samples : List Bool} {k k' : Channel} (h : k.ticks c samples = k')
    (b : Bool) : k.ticks c (samples ++ [b]) = k'.tick c b :=
  h ▸ Channel.ticks_append c samples [b] k

/-- An idle channel whose last three samples were low. -/
structure Channel.Released (k : Channel) : Prop where
  seq : k.seq = .idle
  settled : k.settled = false
  filter : k.filterShift.extractLsb' 0 3 = 0

theorem Channel.released_reset : Channel.reset.Released := ⟨rfl, rfl, by decide⟩

section
variable {k : Channel} (h : k.Released) (c : Config)
include h

theorem Channel.Released.ticks_one : k.ticks c [true] =
    { k with filterShift := shiftIn k.filterShift true, settled := false, eventOut := .none } :=
  Channel.tick_idle_low h.seq (h.settled ▸ (settledNext_rises k.filterShift k.settled h.filter).left)

theorem Channel.Released.ticks_two : k.ticks c [true, true] =
    { k with filterShift := shiftIn (shiftIn k.filterShift true) true, settled := false, eventOut := .none } := by
  obtain ⟨-, hlow, -⟩ := settledNext_rises k.filterShift false h.filter
  exact (Channel.ticks_concat_of_eq (h.ticks_one c) true).trans (Channel.tick_idle_low h.seq hlow)

/-- The third high sample raises the level and arms the channel. -/
theorem Channel.Released.ticks_three : k.ticks c [true, true, true] =
    ⟨shiftIn (shiftIn (shiftIn k.filterShift true) true) true, true, .armedShortOrHold, 0, .none⟩ := by
  obtain ⟨-, -, hhigh, -⟩ := settledNext_rises k.filterShift false h.filter
  exact (Channel.ticks_concat_of_eq (h.ticks_two c) true).trans (Channel.tick_idle_high h.seq hhigh)

end

/-! ### A short press (R185) -/

section
variable {c : Config} (hS : 3 ≤ c.shortPressLimit)
include hS

/-- One low sample later the level is still high, and the timer below the limit. -/
theorem Channel.reset_ticks_four :
    Channel.reset.ticks c [true, true, true, false] = ⟨0x0E, true, .armedShortOrHold, 1, .none⟩ :=
  (Channel.ticks_concat_of_eq (Channel.released_reset.ticks_three c) false).trans
    (Channel.tick_high_of_ne (p := 0) rfl (by decide) (show 1 ≠ c.shortPressLimit by omega))

theorem Channel.reset_ticks_five :
    Channel.reset.ticks c [true, true, true, false, false] = ⟨0x1C, true, .armedShortOrHold, 2, .none⟩ :=
  (Channel.ticks_concat_of_eq (Channel.reset_ticks_four hS) false).trans
    (Channel.tick_high_of_ne (p := 0) rfl (by decide) (show 2 ≠ c.shortPressLimit by omega))

/-- The third low sample is the release, which is tested before the limit. -/
theorem Channel.reset_ticks_six :
    Channel.reset.ticks c [true, true, true, false, false, false] = ⟨0x38, false, .idle, 3, .pressed⟩ :=
  (Channel.ticks_concat_of_eq (Channel.reset_ticks_five hS) false).trans (Channel.tick_armed_low rfl (by decide))

end

/-- Settles O52: the level stays high on ticks 4 and 5, before the timer reaches the limit, and falls on tick 6. -/
theorem shortPressIsOnePressed : Obligations.ShortPressIsOnePressed := by
  intro c hS
  have hreset := Channel.released_reset
  refine ⟨fun n hn => ?_, ?_⟩
  · match n, hn with
    | 0, _ => rfl
    | 1, _ => exact congrArg Channel.eventOut (hreset.ticks_one c)
    | 2, _ => exact congrArg Channel.eventOut (hreset.ticks_two c)
    | 3, _ => exact congrArg Channel.eventOut (hreset.ticks_three c)
    | 4, _ => exact congrArg Channel.eventOut (Channel.reset_ticks_four hS)
    | 5, _ => exact congrArg Channel.eventOut (Channel.reset_ticks_five hS)
  · rw [Channel.reset_ticks_six hS]
    exact ⟨rfl, rfl, rfl⟩

/-! ### A button held down (R184) -/

/-- A channel `j` ticks into period `p`, with the last three samples high. -/
structure Channel.HeldIn (p j : Nat) (k : Channel) : Prop where
  filter : k.filterShift.extractLsb' 0 3 = 7
  seq : k.seq = heldSeq p
  timer : k.holdTimer.toNat = j

/-- No limit is above 255, so the timer does not wrap (R181). -/
theorem Channel.HeldIn.toNat_holdTimer_add_one {c : Config} {p j : Nat} {k : Channel} (h : k.HeldIn p j)
    (hj : j < heldLimit c p) : (k.holdTimer + 1).toNat = j + 1 := by
  have hle := heldLimit_le c p
  rw [timer_succ _ (by rw [h.timer]; omega), h.timer]

/-- A tick within a period. -/
theorem Channel.HeldIn.tick_inside {c : Config} {p j : Nat} {k : Channel} (h : k.HeldIn p j)
    (hj : j + 1 < heldLimit c p) :
    (k.tick c true).HeldIn p (j + 1) ∧ (k.tick c true).eventOut = .none := by
  obtain ⟨hhigh, hfilter⟩ := settledNext_stays k.filterShift k.settled h.filter
  have htimer := h.toNat_holdTimer_add_one (Nat.lt_of_succ_lt hj)
  rw [Channel.tick_high_of_ne h.seq hhigh (by omega)]
  exact ⟨⟨hfilter, rfl, htimer⟩, rfl⟩

/-- The last tick of a period. -/
theorem Channel.HeldIn.tick_end {c : Config} {p j : Nat} {k : Channel} (h : k.HeldIn p j)
    (hj : j + 1 = heldLimit c p) :
    (k.tick c true).HeldIn (p + 1) 0 ∧ (k.tick c true).eventOut = .hold := by
  obtain ⟨hhigh, hfilter⟩ := settledNext_stays k.filterShift k.settled h.filter
  have htimer := h.toNat_holdTimer_add_one hj.le
  rw [Channel.tick_high_of_eq h.seq hhigh (htimer.trans hj)]
  exact ⟨⟨hfilter, rfl, rfl⟩, rfl⟩

theorem Channel.ticks_replicate_add (c : Config) (m n : Nat) (b : Bool) (k : Channel) :
    k.ticks c (List.replicate (m + n) b) = (k.ticks c (List.replicate m b)).ticks c (List.replicate n b) := by
  rw [← List.replicate_append_replicate, Channel.ticks_append]

section
variable {p : Nat} {k : Channel} (h : k.HeldIn p 0) (c : Config)
include h

/-- A period from its start: the timer counts the ticks. -/
theorem Channel.HeldIn.ticks (j : Nat) (hj : j < heldLimit c p) :
    (k.ticks c (List.replicate j true)).HeldIn p j := by
  induction j with
  | zero => exact h
  | succ j ih =>
    rw [Channel.ticks_replicate_succ]
    exact ((ih (Nat.lt_of_succ_lt hj)).tick_inside hj).1

theorem Channel.HeldIn.eventOut_ticks_succ {j : Nat} (hj : j + 1 < heldLimit c p) :
    (k.ticks c (List.replicate (j + 1) true)).eventOut = .none := by
  rw [Channel.ticks_replicate_succ]
  exact ((h.ticks c j (Nat.lt_of_succ_lt hj)).tick_inside hj).2

/-- After the ticks of one period the next one starts, with a `Hold`. -/
theorem Channel.HeldIn.ticks_heldLimit :
    (k.ticks c (List.replicate (heldLimit c p) true)).HeldIn (p + 1) 0 ∧
      (k.ticks c (List.replicate (heldLimit c p) true)).eventOut = .hold := by
  obtain ⟨j, hj⟩ := Nat.exists_eq_succ_of_ne_zero (heldLimit_pos c p).ne'
  rw [hj, Channel.ticks_replicate_succ]
  exact (h.ticks c j (by omega)).tick_end hj.symm

end

section
variable {k : Channel} (h : k.Released) (c : Config)
include h

theorem Channel.Released.ticks_replicate_three : k.ticks c (List.replicate 3 true) =
    ⟨shiftIn (shiftIn (shiftIn k.filterShift true) true) true, true, .armedShortOrHold, 0, .none⟩ := h.ticks_three c

/-- Period `p` starts with the timer at 0. -/
theorem Channel.Released.heldIn_heldStart (p : Nat) :
    (k.ticks c (List.replicate (heldStart c p) true)).HeldIn p 0 := by
  induction p with
  | zero =>
    obtain ⟨-, -, -, hfilter⟩ := settledNext_rises k.filterShift false h.filter
    rw [heldStart, h.ticks_replicate_three]
    exact ⟨hfilter, rfl, rfl⟩
  | succ p ih =>
    rw [heldStart, Channel.ticks_replicate_add]
    exact (ih.ticks_heldLimit c).1

theorem Channel.Released.eventOut_heldStart_succ (p : Nat) :
    (k.ticks c (List.replicate (heldStart c (p + 1)) true)).eventOut = .hold := by
  rw [heldStart, Channel.ticks_replicate_add]
  exact ((h.heldIn_heldStart c p).ticks_heldLimit c).2

theorem Channel.Released.eventOut_of_ne_heldStart_succ {tick : Nat} (hpos : 1 ≤ tick)
    (hne : ∀ p, tick ≠ heldStart c (p + 1)) : (k.ticks c (List.replicate tick true)).eventOut = .none := by
  match tick, hpos with
  | 1, _ => exact congrArg Channel.eventOut (h.ticks_one c)
  | 2, _ => exact congrArg Channel.eventOut (h.ticks_two c)
  | n + 3, _ =>
    obtain ⟨p, j, hj, heq⟩ := exists_heldStart_add c (Nat.le_add_left 3 n)
    match p, j with
    | 0, 0 =>
      obtain rfl : n = 0 := by simpa [heldStart] using heq
      exact congrArg Channel.eventOut (h.ticks_three c)
    | p + 1, 0 => exact absurd heq (hne p)
    | p, j + 1 =>
      rw [heq, Channel.ticks_replicate_add]
      exact (h.heldIn_heldStart c p).eventOut_ticks_succ c hj

end

/-- Settles O51: the ticks it names are the ends of the periods, and on these alone there is an event. -/
theorem heldButtonEvents : Obligations.HeldButtonEvents := by
  intro c k hseq hsettled hfilter
  have h : k.Released := ⟨hseq, hsettled, hfilter⟩
  refine ⟨?_, fun tick hpos => ?_⟩
  · rw [h.ticks_replicate_three]
    exact ⟨rfl, rfl, rfl⟩
  · rw [← exists_eq_heldStart_succ_iff]
    constructor
    · rintro ⟨p, rfl⟩
      exact h.eventOut_heldStart_succ c p
    · exact fun hnone => h.eventOut_of_ne_heldStart_succ c hpos (not_exists.mp hnone)

end Sys2Proof.Machine

/-!
ThermalSupervisor (spec/46_thermal.md): the gate (R192, R193), what THERMAL_SAMPLE and IS_OVERTEMP do (R190, R191,
R195), and the window under a constant sample (R196, R197).

Read from the oldest sample on (`Thermal.oldestFirst`), the ring is a queue: a sample drops the first entry and appends
itself. After `k` equal samples the last `k` entries are that sample, whatever position the ring started from; R196
reads this at `k = N`, and R197 from the ring of zeros after reset.
-/

namespace Sys2Proof.Machine

/-! ### The gate (R192, R193) -/

/-- A set flag can only be cleared and a clear one only be set: the two lines of R192 never both act, since the lower
threshold is below the upper one. -/
theorem trippedNext_eq (c : Config) (sum : Nat) (t : Bool) :
    trippedNext c sum t = if t then !decide (sum < c.lowerThreshold) else decide (sum > c.upperThreshold) := by
  have hband := c.lower_lt_upper
  cases t with
  | true => simp [trippedNext]
  | false =>
    by_cases hup : sum > c.upperThreshold
    · simp [trippedNext, hup, show ¬ sum < c.lowerThreshold by omega]
    · simp [trippedNext, hup]

theorem trippedNext_of_band {c : Config} {sum : Nat} (hlo : c.lowerThreshold ≤ sum) (hup : sum ≤ c.upperThreshold)
    (t : Bool) : trippedNext c sum t = t := by
  cases t <;> simpa [trippedNext_eq]

theorem trippedNext_of_above {c : Config} {sum : Nat} (h : c.upperThreshold < sum) (t : Bool) :
    trippedNext c sum t = true := by
  have hband := c.lower_lt_upper
  cases t with
  | true => simpa [trippedNext_eq] using (hband.trans h).le
  | false => simpa [trippedNext_eq] using h

theorem trippedNext_of_below {c : Config} {sum : Nat} (h : sum < c.lowerThreshold) (t : Bool) :
    trippedNext c sum t = false := by
  have hband := c.lower_lt_upper
  cases t with
  | true => simpa [trippedNext_eq] using h
  | false => simpa [trippedNext_eq] using (h.trans hband).le

/-- A clear flag stays clear up to the upper threshold, below the band too. -/
theorem trippedNext_false_of_le {c : Config} {sum : Nat} (h : sum ≤ c.upperThreshold) :
    trippedNext c sum false = false := by
  simpa [trippedNext_eq] using h

/-- Settles O54, from the gate on a sum in the band, above it and below it. -/
theorem tripFlagHysteresis : Obligations.TripFlagHysteresis := fun _ _ t =>
  ⟨fun hlo hup => trippedNext_of_band hlo hup t, fun h => trippedNext_of_above h t, fun h => trippedNext_of_below h t⟩

/-! ### THERMAL_SAMPLE (R190, R191) -/

theorem Thermal.outgoing_of_getElem? {t : Thermal} {outgoing : Nat} (h : t.buffer[t.pos]? = some outgoing) :
    t.outgoing = outgoing := by
  rw [Thermal.outgoing, List.getD_eq_getElem?_getD, h, Option.getD_some]

/-- THERMAL_SAMPLE writes the window and its response and nothing else, in every state. -/
theorem exec_thermalSample (v : Word) (s : State) : exec (.thermalSample v) s = .next { s with
    thermal := s.thermal.sample s.cfg v.toNat
    tickResponse := [0x00] } := rfl

/-- The gate is the rule of R192 on the new sum. -/
theorem Thermal.sample_tripped (c : Config) (v : Nat) (t : Thermal) :
    (t.sample c v).tripped = trippedNext c (t.sample c v).sum t.tripped := rfl

/-- With the invariants, a sample inside its domain leaves the sum that of a full window (R37). -/
theorem TickInv.sample_sum {s : State} (h : TickInv s) {v : Nat} (hv : v < 2 ^ s.cfg.sampleBits) :
    (s.thermal.sample s.cfg v).sum = (s.thermal.buffer.set s.thermal.pos v).sum ∧
      (s.thermal.sample s.cfg v).sum ≤ s.cfg.n * (2 ^ s.cfg.sampleBits - 1) := by
  obtain ⟨-, hlen, hfits, hsum, -⟩ := h.withSample v hv
  exact ⟨hsum, hsum.trans_le (window_sum_le s.cfg _ hlen hfits)⟩

/-- Settles O53: the sum covers the outgoing sample, so the model's subtraction is that of the integers. -/
theorem thermalSampleEffect : Obligations.ThermalSampleEffect := by
  refine ⟨fun hi lo => ⟨decode_code_cons .thermalSample [hi, lo], rfl⟩, fun v s outgoing hout hle => ?_⟩
  have hsum : (s.thermal.sample s.cfg v.toNat).sum = s.thermal.sum - outgoing + v.toNat := by
    rw [← Thermal.outgoing_of_getElem? hout]
    rfl
  refine ⟨(s.thermal.sample s.cfg v.toNat).sum, by omega, ?_, fun hinv hv => ?_⟩
  · rw [exec_thermalSample, ← trippedNext_eq]
    rfl
  · obtain ⟨htick, -⟩ := (inv_iff s).mp hinv
    obtain ⟨heq, hbound⟩ := htick.sample_sum hv
    exact ⟨heq, hbound, hbound.trans_lt (window_bound_lt_two_pow_sumBits s.cfg)⟩

/-! ### IS_OVERTEMP, and what cannot be read out (R195) -/

/-- Replaces the ring, the sum and the position, and leaves the trip flag. -/
def State.withRing (buffer : List Nat) (sum pos : Nat) (s : State) : State :=
  { s with thermal := { s.thermal with buffer := buffer, sum := sum, pos := pos } }

section
variable (buffer : List Nat) (sum pos : Nat) (s : State)

@[simp] theorem State.withRing_cfg : (s.withRing buffer sum pos).cfg = s.cfg := rfl
@[simp] theorem State.withRing_bus : (s.withRing buffer sum pos).bus = s.bus := rfl
@[simp] theorem State.withRing_sensor : (s.withRing buffer sum pos).sensor = s.sensor := rfl

@[simp] theorem State.withRing_ite (p : Prop) [Decidable p] (t : State) :
    State.withRing buffer sum pos (if p then s else t) =
      if p then s.withRing buffer sum pos else t.withRing buffer sum pos := apply_ite ..

end

/-- An operation of the MAIN port carries whatever ring, sum and position it meets over to the next state and reads none
of them. -/
theorem exec_main_withRing (i : Instr) (s t : State) (buffer : List Nat) (sum pos : Nat) (hp : i.port = .main)
    (h : exec i s = .next t) : exec i (s.withRing buffer sum pos) = .next (t.withRing buffer sum pos) := by
  cases i with
  | debounceTick ch x => cases hp
  | thermalSample v => cases hp
  | startMeasurement kind =>
    cases h
    simp only [exec, execStartMeasurement, State.withRing_ite, State.withRing_cfg, State.withRing_bus,
      State.withRing_sensor]
    rfl
  | pollDone =>
    cases h
    simp only [exec, execPollDone, State.withRing_ite, State.withRing_bus, State.withRing_sensor]
    rfl
  | readResult =>
    cases h
    simp only [exec, execReadResult, State.withRing_ite, State.withRing_cfg, State.withRing_bus,
      State.withRing_sensor]
    rfl
  | verifyCrc kind hi lo cs =>
    cases h
    simp only [exec, execVerifyCrc, State.withRing_ite, State.withRing_cfg]
    rfl
  | measure kind =>
    cases h
    simp only [exec, execMeasure, acceptMeasure, State.withRing_ite, State.withRing_cfg, State.withRing_bus,
      State.withRing_sensor]
    rfl
  | measureAndCheck kind =>
    cases h
    simp only [exec, execMeasureAndCheck, acceptMeasure, State.withRing_ite, State.withRing_cfg, State.withRing_bus,
      State.withRing_sensor]
    rfl
  | _ => cases h; rfl

/-- Settles O58: MAIN's operations carry the ring over unread, and TICK's answer from the channels, or with the status
alone. -/
theorem isOvertempEffect : Obligations.IsOvertempEffect := by
  refine ⟨decode_code_cons .isOvertemp [], rfl, fun _ => rfl, fun i s buffer sum pos => ?_⟩
  cases hp : i.port with
  | tick =>
    obtain ⟨ch, b, rfl⟩ | ⟨v, rfl⟩ := (port_eq_tick_iff i).mp hp
    · exact ⟨_, _, rfl, rfl, rfl, rfl⟩
    · exact ⟨_, _, rfl, rfl, rfl, rfl⟩
  | main =>
    obtain ⟨b, d, duty, r, he⟩ := exec_main i s hp
    exact ⟨_, _, he, exec_main_withRing i s _ buffer sum pos hp he, rfl, rfl⟩

/-! ### The ring as a queue -/

/-- The ring read from its oldest sample on, the one replaced next. -/
def Thermal.oldestFirst (t : Thermal) : List Nat := t.buffer.rotate t.pos

/-- What the ring needs to be a queue of `N` samples with their sum (R32, R37, R38). The samples may be of any size, as
those of R197 are. -/
structure Thermal.IsQueue (c : Config) (t : Thermal) : Prop where
  buffer_length : t.buffer.length = c.n
  sum_eq : t.sum = t.buffer.sum
  pos_lt : t.pos < c.n

/-- An entry replaced is the last one when the reading starts right after it. -/
theorem rotate_succ_set {l : List Nat} {p : Nat} (h : p < l.length) (v : Nat) :
    (l.set p v).rotate (p + 1) = (l.rotate p).tail ++ [v] := by
  have hne : l.drop p ≠ [] := List.ne_nil_of_length_pos (by simpa using h)
  rw [List.rotate_eq_drop_append_take (by simpa using h), List.rotate_eq_drop_append_take h.le,
    List.tail_append_of_ne_nil hne, List.tail_drop, List.drop_set_of_lt (by omega), List.append_assoc,
    List.take_add_one, List.getElem?_set_self h, List.take_set_of_le le_rfl]
  rfl

namespace Thermal.IsQueue

variable {c : Config} {t : Thermal} (h : t.IsQueue c)
include h

theorem oldestFirst_length : t.oldestFirst.length = c.n := (List.length_rotate ..).trans h.buffer_length

theorem sum_eq_oldestFirst : t.sum = t.oldestFirst.sum := h.sum_eq.trans (List.rotate_perm _ _).sum_eq.symm

theorem sample (v : Nat) : (t.sample c v).IsQueue c where
  buffer_length := (List.length_set ..).trans h.buffer_length
  sum_eq := by
    have hset := (sum_set t.buffer t.pos v (h.buffer_length ▸ h.pos_lt)).1
    rw [← h.sum_eq] at hset
    exact hset.symm
  pos_lt := Nat.mod_lt _ c.n_pos

/-- A sample drops the oldest entry and appends itself (R191). -/
theorem oldestFirst_sample (v : Nat) : (t.sample c v).oldestFirst = t.oldestFirst.tail ++ [v] :=
  calc (t.buffer.set t.pos v).rotate ((t.pos + 1) % c.n)
      = (t.buffer.set t.pos v).rotate (t.pos + 1) := by
        rw [← h.buffer_length, ← List.length_set, List.rotate_mod]
    _ = (t.buffer.rotate t.pos).tail ++ [v] := rotate_succ_set (h.buffer_length ▸ h.pos_lt) v

theorem iterate_sample (v k : Nat) : ((Thermal.sample c v)^[k] t).IsQueue c := by
  induction k with
  | zero => exact h
  | succ k ih =>
    rw [Function.iterate_succ_apply']
    exact ih.sample v

/-- After `k` equal samples the `k` youngest entries are that sample. -/
theorem oldestFirst_iterate_sample (v : Nat) {k : Nat} (hk : k ≤ c.n) :
    ((Thermal.sample c v)^[k] t).oldestFirst = t.oldestFirst.drop k ++ List.replicate k v := by
  induction k with
  | zero => simp
  | succ k ih =>
    have hne : t.oldestFirst.drop k ≠ [] :=
      List.ne_nil_of_length_pos (by rw [List.length_drop, h.oldestFirst_length]; omega)
    rw [Function.iterate_succ_apply', (h.iterate_sample v k).oldestFirst_sample, ih (by omega),
      List.tail_append_of_ne_nil hne, List.tail_drop, List.append_assoc, ← List.replicate_succ']

/-- `N` equal samples fill the ring, whatever it held (R196). -/
theorem buffer_iterate_sample_n (v : Nat) : ((Thermal.sample c v)^[c.n] t).buffer = List.replicate c.n v := by
  have hfull : ((Thermal.sample c v)^[c.n] t).oldestFirst = List.replicate c.n v := by
    rw [h.oldestFirst_iterate_sample v le_rfl, ← h.oldestFirst_length, List.drop_length, List.nil_append]
  refine List.rotate_injective ((Thermal.sample c v)^[c.n] t).pos ?_
  exact hfull.trans (List.rotate_replicate ..).symm

theorem sum_iterate_sample_n (v : Nat) : ((Thermal.sample c v)^[c.n] t).sum = c.n * v := by
  rw [(h.iterate_sample v c.n).sum_eq, h.buffer_iterate_sample_n, List.sum_replicate, smul_eq_mul]

/-- The flag after `N` equal samples is the gate on `N` times the sample, from some flag before it. -/
theorem tripped_iterate_sample_n (v : Nat) :
    ∃ before, ((Thermal.sample c v)^[c.n] t).tripped = trippedNext c (c.n * v) before := by
  obtain ⟨m, hm⟩ := Nat.exists_eq_add_of_le' c.n_pos
  refine ⟨((Thermal.sample c v)^[m] t).tripped, ?_⟩
  rw [← h.sum_iterate_sample_n v, hm, Function.iterate_succ_apply', Thermal.sample_tripped]

end Thermal.IsQueue

/-! ### A constant sample (R196, R197) -/

theorem TickInv.isQueue {s : State} (h : TickInv s) : s.thermal.IsQueue s.cfg :=
  ⟨h.buffer_length, h.sum_eq, h.pos_lt⟩

/-- A THERMAL_SAMPLE inside its domain is served at once, whatever the MAIN port does (R58, R218). -/
theorem step_thermalSample (s : State) (v : Word) (rest : List Input) (hv : v.toNat < 2 ^ s.cfg.sampleBits)
    (hin : s.inputs = .request .tick (encode (.thermalSample v)) :: rest) :
    step s = .next { s with
      thermal := s.thermal.sample s.cfg v.toNat, inputs := rest, tickResponse := [0x00] } :=
  have hdecode := decodeInvertsEncode s.cfg (.thermalSample v) (decide_eq_true hv)
  stepRunsDecodedRequest s .tick _ rest _ hin hdecode rfl nofun

/-- So many THERMAL_SAMPLE requests of one value sample the window so many times. -/
theorem run_thermalSamples (v : Word) (k : Nat) (s : State) (hv : v.toNat < 2 ^ s.cfg.sampleBits)
    (hin : s.inputs = List.replicate k (.request .tick (encode (.thermalSample v)))) :
    ∃ t, core.run k s = .next t ∧ t.thermal = (Thermal.sample s.cfg v.toNat)^[k] s.thermal := by
  induction k generalizing s with
  | zero => exact ⟨s, rfl, rfl⟩
  | succ k ih =>
    rw [run_succ k s _ (step_thermalSample s v _ hv hin)]
    exact ih { s with thermal := _, inputs := _, tickResponse := _ } hv rfl

/-- Settles O55: the requests sample the window `N` times, and the last gate acts on `N` times the value. -/
theorem constantSamplesFillTheWindow : Obligations.ConstantSamplesFillTheWindow := by
  intro s v hinv hv hin
  obtain ⟨htick, -⟩ := (inv_iff s).mp hinv
  obtain ⟨t, hrun, hthermal⟩ := run_thermalSamples v s.cfg.n s hv hin
  obtain ⟨before, htripped⟩ := htick.isQueue.tripped_iterate_sample_n v.toNat
  rw [← hthermal] at htripped
  refine ⟨t, hrun, ?_, ?_, fun habove => ?_, fun hbelow => ?_⟩
  · rw [hthermal, htick.isQueue.buffer_iterate_sample_n]
  · rw [hthermal, htick.isQueue.sum_iterate_sample_n]
  · rw [htripped, trippedNext_of_above habove]
  · rw [htripped, trippedNext_of_below hbelow]

theorem Thermal.reset_isQueue (c : Config) : (Thermal.reset c).IsQueue c :=
  ⟨List.length_replicate, by simp [Thermal.reset], c.n_pos⟩

/-- During warm-up the entries not yet replaced add nothing (R197). -/
theorem Thermal.sum_iterate_sample_reset (c : Config) (v : Nat) {k : Nat} (hk : k ≤ c.n) :
    ((Thermal.sample c v)^[k] (Thermal.reset c)).sum = k * v := by
  have hzeros : (Thermal.reset c).oldestFirst = List.replicate c.n 0 := List.rotate_replicate ..
  rw [((Thermal.reset_isQueue c).iterate_sample v k).sum_eq_oldestFirst,
    (Thermal.reset_isQueue c).oldestFirst_iterate_sample v hk, hzeros]
  simp

/-- The flag is clear at reset, and no gate up to call `k` sees a sum above the upper threshold. -/
theorem Thermal.tripped_iterate_sample_reset (c : Config) (v : Nat) {k : Nat} (hk : k ≤ c.n)
    (hle : k * v ≤ c.upperThreshold) : ((Thermal.sample c v)^[k] (Thermal.reset c)).tripped = false := by
  induction k with
  | zero => rfl
  | succ k ih =>
    have hprev : k * v ≤ c.upperThreshold := (Nat.mul_le_mul_right v k.le_succ).trans hle
    have hsum := Thermal.sum_iterate_sample_reset c v hk
    rw [Function.iterate_succ_apply'] at hsum ⊢
    rw [Thermal.sample_tripped, hsum, ih (by omega) hprev, trippedNext_false_of_le hle]

/-- Settles O56: both clauses, for a ring of zeros that fills with the sample. -/
theorem warmUpDelaysTheTrip : Obligations.WarmUpDelaysTheTrip := fun c v _ hk hle =>
  ⟨Thermal.tripped_iterate_sample_reset c v hk hle, Thermal.sum_iterate_sample_reset c v hk⟩

end Sys2Proof.Machine

/-!
ActuatorGate (spec/47_actuator.md): what SET_DUTY and GET_DUTY do (R200, R201, R203), and that no other request and no
micro-step writes the duty (R204).
-/

namespace Sys2Proof.Machine

/-! ### SET_DUTY and GET_DUTY (R200, R201, R203) -/

/-- SET_DUTY writes the duty and its response and nothing else, in every state. -/
theorem exec_setDuty (value : Byte) (s : State) : exec (.setDuty value) s = .next { s with
    duty := if s.thermal.tripped then 0 else clampDuty s.cfg value
    mainResponse := [0x00] } := rfl

/-- The gate comes before the clamp: a set trip flag wins over every value (R200). -/
theorem gatedDuty_toNat (c : Config) (tripped : Bool) (v : Byte) :
    (if tripped then 0 else clampDuty c v).toNat =
      if tripped then 0 else if v.toNat < c.period then v.toNat else c.period - 1 := by
  cases tripped with
  | true => rfl
  | false => exact clampDuty_toNat c v

/-- Settles O59, from the value written and its bound. -/
theorem setDutyEffect : Obligations.SetDutyEffect := fun value s =>
  ⟨decode_code_cons .setDuty [value], rfl, _, exec_setDuty value s, gatedDuty_toNat s.cfg s.thermal.tripped value,
    gatedDuty_lt s.cfg s.thermal.tripped value⟩

/-- Settles O60: GET_DUTY writes its response alone. -/
theorem getDutyEffect : Obligations.GetDutyEffect := ⟨decode_code_cons .getDuty [], rfl, fun _ => rfl⟩

/-! ### Who writes the duty (R202, R204) -/

@[simp] theorem acceptMeasure_duty (checked : Bool) (k : Kind) (s : State) :
    (acceptMeasure checked k s).duty = s.duty := by
  unfold acceptMeasure
  split <;> rfl

theorem State.answerError_duty (s : State) (p : Port) (st : Status) : (s.answerError p st).duty = s.duty := by
  cases p <;> rfl

/-- Of the operations of both ports only SET_DUTY changes the duty. -/
theorem exec_duty_ne {i : Instr} {s t : State} (h : exec i s = .next t) (hne : t.duty ≠ s.duty) :
    ∃ v, i = .setDuty v := by
  cases i with
  | setDuty v => exact ⟨v, rfl⟩
  | startMeasurement k | pollDone | readResult | verifyCrc k hi lo cs =>
    cases h
    exact absurd (by simp [apply_ite State.duty]) hne
  | measure k | measureAndCheck k =>
    cases h
    exact absurd (acceptMeasure_duty _ k s) hne
  | _ =>
    cases h
    exact absurd rfl hne

/-- A request that changes the duty is a SET_DUTY, and MAIN is the port that accepts it (R77, R204). -/
theorem serve_duty_ne {p : Port} {bytes : List Byte} {s t : State} (h : serve p bytes s = .next t)
    (hne : t.duty ≠ s.duty) : p = .main ∧ ∃ v, decodeRequest s.cfg bytes = .ok (.setDuty v) := by
  obtain ⟨_, _, hv⟩ | ⟨_, _, _, hv⟩ | ⟨i, hd, hp, hv⟩ := serve_cases p bytes s
  · cases hv.symm.trans h
    exact absurd (s.answerError_duty p .illegal) hne
  · cases hv.symm.trans h
    exact absurd (s.answerError_duty p .refused) hne
  · obtain ⟨v, rfl⟩ := exec_duty_ne (hv.symm.trans h) hne
    exact ⟨hp.symm, v, hd⟩

/-- Settles O18: micro-steps and requests on TICK leave the duty, and MAIN serves a request only with no operation in
progress. -/
theorem dutyChangesOnlyInSetDuty : Obligations.DutyChangesOnlyInSetDuty := by
  intro s t h hne
  obtain ⟨rest, hin, _⟩ | ⟨rest, _, hs⟩ | ⟨bytes, rest, _, hs⟩ | ⟨bytes, rest, hin, hidle, hs⟩ := step_cases s
  · exact .inr ⟨rest, hin⟩
  · cases hs.symm.trans h
    exact absurd (advance_duty _) hne
  · obtain ⟨hport, _⟩ := serve_duty_ne (hs.symm.trans h) hne
    cases hport
  · obtain ⟨_, v, hd⟩ := serve_duty_ne (hs.symm.trans h) hne
    exact .inl ⟨bytes, rest, v, hin, hidle, hd⟩

end Sys2Proof.Machine

/-!
Error answers and the reset event (spec/60_exceptions.md, spec/70_reset_and_hazards.md): what a request gets that the block
gives no meaning to (R216, R217, R222), what the reset event restores (R240, R241), and that no step stops the block or
touches its configuration (R215, R242).
-/

namespace Sys2Proof.Machine

/-! ### Requests that are given no meaning (R216, R217) -/

/-- A request that does not decode is answered ILLEGAL (R217), the first check of R218. -/
theorem serve_of_undecoded (p : Port) {bytes : List Byte} {s : State} {e : DecodeError}
    (hd : decodeRequest s.cfg bytes = .error e) : serve p bytes s = .next (s.answerError p .illegal) := by
  simp [serve, hd]

/-- A well-formed request on the other port is answered REFUSED (R216), the second check of R218. -/
theorem serve_of_wrong_port {p : Port} {bytes : List Byte} {s : State} {i : Instr}
    (hd : decodeRequest s.cfg bytes = .ok i) (hp : i.port ≠ p) :
    serve p bytes s = .next (s.answerError p .refused) := by
  simp [serve, hd, hp]

/-- Settles O8: the request is served at once, and serving it is the error answer. -/
theorem undecodedRequestIsAnsweredFF : Obligations.UndecodedRequestIsAnsweredFF := by
  intro s bytes rest e hd
  constructor
  · intro hin
    exact (step_request s .tick bytes rest hin nofun).trans (serve_of_undecoded .tick hd)
  · intro hin hidle
    exact (step_request s .main bytes rest hin fun _ => hidle).trans (serve_of_undecoded .main hd)

/-- Settles O9: the port of each operation, and the error answer on the port that is not its own. -/
theorem requestOnWrongPortIsRefused : Obligations.RequestOnWrongPortIsRefused := by
  refine ⟨port_eq_tick_iff, fun s bytes rest i hd => ⟨?_, ?_⟩⟩
  · intro hin hport
    have hne : i.port ≠ .tick := by simp [hport]
    exact (step_request s .tick bytes rest hin nofun).trans (serve_of_wrong_port hd hne)
  · intro hin hport hidle
    have hne : i.port ≠ .main := by simp [hport]
    exact (step_request s .main bytes rest hin fun _ => hidle).trans (serve_of_wrong_port hd hne)

/-! ### The reset event (R240, R241) -/

/-- The reset event is taken from the inputs and resets the block. -/
theorem step_reset (s : State) (rest : List Input) (hin : s.inputs = .reset :: rest) :
    step s = .next (s.withInputs rest).blockReset := by
  simp [step, serveNext, hin]

/-- Settles O11: `State.blockReset` is the reset state of the configuration, with the outside kept. -/
theorem resetEventRestoresResetState : Obligations.ResetEventRestoresResetState := step_reset

/-! ### Every step goes on (R215, R242) -/

/-- A request is always answered, and in the same configuration: each port writes only what it owns (R41). -/
theorem serve_goes_on (p : Port) (bytes : List Byte) (s : State) : ∃ t, serve p bytes s = .next t ∧ t.cfg = s.cfg := by
  cases p with
  | tick =>
    obtain ⟨_, _, _, hs⟩ := serve_tick bytes s
    exact ⟨_, hs, rfl⟩
  | main =>
    obtain ⟨_, _, _, _, hs⟩ := serve_main bytes s
    exact ⟨_, hs, rfl⟩

/-- Settles O15: reset events, micro-steps and served requests all have a next state in the same configuration. -/
theorem everyStepGoesOn : Obligations.EveryStepGoesOn := by
  intro s
  obtain ⟨rest, _, hs⟩ | ⟨rest, _, hs⟩ | ⟨bytes, rest, _, hs⟩ | ⟨bytes, rest, _, _, hs⟩ := step_cases s
  · exact ⟨_, hs, (s.withInputs rest).blockReset_cfg⟩
  · exact ⟨_, hs, advance_cfg (s.withInputs rest)⟩
  · rw [hs]
    exact serve_goes_on .tick bytes (s.withInputs rest)
  · rw [hs]
    exact serve_goes_on .main bytes (s.withInputs rest)

end Sys2Proof.Machine
